-- ==== Sys2Proof/Word.lean ====
section
/-! DEFINITION. The two word types of the command bus: a byte of a frame, and a 32-bit register value. -/

namespace Sys2Proof

/-- One byte of a frame, of the EEPROM or of an RF buffer; also a register address (R9, R103). -/
abbrev Byte := BitVec 8

/-- One 32-bit register value or mask (R9, R13). -/
abbrev Word := BitVec 32

end Sys2Proof
end

