-- ==== Sys2Proof/Config.lean ====
section
/-! DEFINITION. What the spec fixes once (sizes), what it leaves as a parameter (R10, R11), and the free values it leaves
open (R52 and the U rows of 93_implementation_defined.md). -/

namespace Sys2Proof.Config

/-- `MAX_SEND`: the longest payload of SendData, in bytes (R9). -/
abbrev maxSend : Nat := 260

/-- `MAX_READ`: the longest ReadData, in bytes (R9). -/
abbrev maxRead : Nat := 508

/-- `EEPROM_LIMIT`: a request needs addr ≤ 254 and addr + length ≤ 254 (R9). -/
abbrev eepromLimit : Nat := 254

/-- `LEN_INVALID`: the response length that is itself invalid (R9, R211). -/
abbrev lenInvalid : Nat := 511

/-- A 32-bit value the source leaves open, one for every draw number (R52, U5). -/
opaque freeWord : Nat → Word

/-- A byte the source leaves open, one for every draw number (U6). -/
opaque freeByte : Nat → Byte

/-- A bit the source leaves open, one for every draw number (U3, R52). -/
opaque freeBool : Nat → Bool

/-- A byte sequence the source leaves open, one for every draw number (R52, U2, U7). -/
opaque freeBytes : Nat → List Byte

/-- What a read of IRQ_CLEAR returns (U5): one value for every unknown state of the registers (first argument) and every
read made in it (second argument). -/
opaque freeClear : Nat → Nat → Word

/-- The value of the register at an address (second argument) that no rule and no action of the front-end has written
since the unknown state of an epoch (first argument) began (R52, U2, U12). -/
opaque freeReg : Nat → Nat → Word

/-- The EEPROM byte at an address (second argument) that nothing has written since the unknown state of an epoch
(first argument) began (U18, U2). -/
opaque freeEeprom : Nat → Nat → Byte

end Sys2Proof.Config

namespace Sys2Proof

/-- The open parameters of the spec (R10, R11, the list that closes 92_eei_decisions.md). The spec gives no value for them
("a model takes each as an argument"), so they are data that every statement quantifies over; no step changes them. -/
structure Params where
  /-- `CLK_HZ` (R10, D4); no rule depends on it. -/
  clkHz : Nat
  /-- `CLK_MODE` (R10, D4); no rule depends on it. -/
  clkMode : Nat
  /-- `T_SETTLE`, the hold after each select edge (R135). -/
  tSettle : Nat
  /-- `T_BUSY`, the bound on each wait for the BUSY line, in samples after the first (R137). -/
  tBusy : Nat
  /-- `N_IRQ_POLLS`, at least 1 (R184). -/
  nIrqPolls : Nat
  /-- `N_RESP_POLLS`, at least 1 (R208). -/
  nRespPolls : Nat
  /-- `RIGOR_CHECK_WAIT_TRANSMIT` (R206). -/
  rigorCheckWaitTransmit : Bool
  /-- `DEFINED_REGS`, the register addresses the block accepts (R150). -/
  definedRegs : List Byte
  /-- `TS_SHIFT`, the position of the 3-bit state field in RF_STATUS (R39). -/
  tsShift : Nat
  /-- `CMD_MASK`, the command field of SYSTEM_CONFIG (R31). -/
  cmdMask : Word
  /-- `CMD_IDLE` (R31). -/
  cmdIdle : Word
  /-- `CMD_TRANSCEIVE` (R31). -/
  cmdTransceive : Word
  /-- `CRC_EN_MASK` (R36, R38). -/
  crcEnMask : Word
  /-- Whether the optional IRQ line is fitted (D33). -/
  irqFitted : Bool
  /-- Whether the optional RST line is fitted (D2). -/
  rstFitted : Bool
deriving DecidableEq, Repr

/-- The nine register addresses of R30, the default of `DEFINED_REGS` (R11). -/
def Params.nineRegs : List Byte := [0x00, 0x01, 0x02, 0x03, 0x04, 0x12, 0x13, 0x19, 0x1D]

/-- The parameters the machine has at reset: the defaults of R11, and values of the model's own for the bounds of R10
(DESIGN CHOICE, log entry 4). -/
def Params.default : Params where
  clkHz := 7000000
  clkMode := 0
  tSettle := 0
  tBusy := 2
  nIrqPolls := 4
  nRespPolls := 4
  rigorCheckWaitTransmit := true
  definedRegs := Params.nineRegs
  tsShift := 24
  cmdMask := 0x00000007
  cmdIdle := 0x00000000
  cmdTransceive := 0x00000003
  crcEnMask := 0x00000001
  irqFitted := true
  rstFitted := false

/-- What R10, R11 ask of the parameters: both poll bounds are at least 1 and the state field lies inside RF_STATUS. -/
def Params.wf (p : Params) : Bool :=
  decide (1 ≤ p.nIrqPolls) && decide (1 ≤ p.nRespPolls) && decide (p.tsShift ≤ 29)

end Sys2Proof
end

