-- ==== Sys2Proof/Syntax.lean ====
section
/-! DEFINITION. The direct commands: one constructor for each row of spec/opcode_table.json (R101), with the operands its
rule gives it. -/

namespace Sys2Proof

/-- The twelve direct commands (R101). Lengths, EEPROM addresses and the valid-bit count are the numbers CLIENT gives,
before any truncation to a byte (R163). -/
inductive Instr where
  /-- 0x00 (R151): write a 32-bit register. -/
  | writeRegister (addr : Byte) (value : Word)
  /-- 0x01 (R152): OR a mask into a register. -/
  | writeRegisterOrMask (addr : Byte) (mask : Word)
  /-- 0x02 (R153): AND a mask into a register. -/
  | writeRegisterAndMask (addr : Byte) (mask : Word)
  /-- 0x04 (R154): read a 32-bit register. -/
  | readRegister (addr : Byte)
  /-- 0x06 (R162): write bytes of the EEPROM; the length is that of the data (D27). -/
  | writeEEPROM (addr : Nat) (data : List Byte)
  /-- 0x07 (R161): read bytes of the EEPROM. -/
  | readEEPROM (addr : Nat) (length : Nat)
  /-- 0x09 (R170): fill the transmit buffer and transmit. -/
  | sendData (bytes : List Byte) (validBits : Nat)
  /-- 0x0A (R174): fetch bytes of the receive buffer. -/
  | readData (length : Nat)
  /-- 0x0B (R186): listed, with no operation: a request for it ends Unsupported. -/
  | switchMode
  /-- 0x11 (R180): load the transmit and receive RF profiles. -/
  | loadRFConfig (tx : Byte) (rx : Byte)
  /-- 0x16 (R181): the operation SetRFOn. -/
  | rfOn
  /-- 0x17 (R182): the operation SetRFOff. -/
  | rfOff
deriving DecidableEq, Repr

/-- The opcode, byte 0 of the command's write frame (R100, R101). -/
def Instr.opcode : Instr → Byte
  | .writeRegister _ _ => 0x00
  | .writeRegisterOrMask _ _ => 0x01
  | .writeRegisterAndMask _ _ => 0x02
  | .readRegister _ => 0x04
  | .writeEEPROM _ _ => 0x06
  | .readEEPROM _ _ => 0x07
  | .sendData _ _ => 0x09
  | .readData _ => 0x0A
  | .switchMode => 0x0B
  | .loadRFConfig _ _ => 0x11
  | .rfOn => 0x16
  | .rfOff => 0x17

/-- A direct command as it travels: the bytes of its write frame, and the number of bytes of the read frame that follows it
in the same exchange, 0 where there is none (R100, R102). -/
structure Encoding where
  frame : List Byte
  readLen : Nat
deriving DecidableEq, Repr

end Sys2Proof
end

