-- ==== Sys2Proof/WellFormed.lean ====
section
/-! DEFINITION. Which direct commands have a frame: the operand ranges of the frame fields (R103) and of the layouts (R118). -/

namespace Sys2Proof

/-- An instruction is well formed when every operand lies in the range its frame field has (R103, R118). Whether the block
ACCEPTS the operands (a defined register, an EEPROM range that ends at 253) is a question of its own, answered by
`Instr.paramError` when the instruction runs (R117). -/
def Instr.wf : Instr → Bool
  | .writeRegister _ _ => true
  | .writeRegisterOrMask _ _ => true
  | .writeRegisterAndMask _ _ => true
  | .readRegister _ => true
  | .writeEEPROM addr data =>
      decide (addr ≤ 255) && decide (1 ≤ data.length) && decide (data.length ≤ Config.eepromLimit)
  | .readEEPROM addr length => decide (addr ≤ 255) && decide (1 ≤ length) && decide (length ≤ Config.eepromLimit)
  | .sendData bytes validBits =>
      decide (1 ≤ bytes.length) && decide (bytes.length ≤ Config.maxSend) && decide (validBits ≤ 7)
  | .readData length => decide (1 ≤ length) && decide (length ≤ Config.maxRead)
  | .switchMode => true
  | .loadRFConfig _ _ => true
  | .rfOn => true
  | .rfOff => true

end Sys2Proof
end

