-- ==== Sys2Proof/Decode.lean ====
section
/-! DEFINITION. The frames of the direct commands (R100 to R118): the decoder, total and rejecting by name, the encoder written
from the same layouts, and the host's two views of a table word. -/

namespace Sys2Proof

/-- `le32(v)`: the four bytes of a 32-bit value, least significant first (R14, R73). -/
def le32 (v : Word) : List Byte :=
  [v.extractLsb' 0 8, v.extractLsb' 8 8, v.extractLsb' 16 8, v.extractLsb' 24 8]

/-- `unle32(b)` = b[0] + 256*b[1] + 65536*b[2] + 16777216*b[3] (R14). -/
def unle32 (b : List Byte) : Word :=
  BitVec.ofNat 32 (b.foldr (fun x rest => x.toNat + 256 * rest) 0)

/-- Why a frame is no command (R116, R117). -/
inductive Reject where
  /-- An empty frame: there is no byte 0. -/
  | noOpcode
  /-- Byte 0 is no opcode of R101 (R116). -/
  | unlistedOpcode (opcode : Byte)
  /-- A listed opcode with a number of bytes its layout does not have (R117, R118). -/
  | wrongLength (opcode : Byte) (bytes : Nat)
  /-- A constant byte of the layout is not 0x00 (R111, R114, R115). -/
  | wrongConstant (opcode : Byte) (found : Byte)
  /-- The read frame has a size the command does not have (R102, R118). -/
  | wrongReadLength (opcode : Byte) (bytes : Nat)
deriving DecidableEq, Repr

/-- The layout `[opcode, addr] ++ le32(x)`, six bytes and no read frame (R104, R105, R106). -/
def decodeReg6 (make : Byte → Word → Instr) (op : Byte) (rest : List Byte) (n : Nat) : Except Reject Instr :=
  match rest with
  | [addr, b0, b1, b2, b3] =>
      if n = 0 then .ok (make addr (unle32 [b0, b1, b2, b3])) else .error (.wrongReadLength op n)
  | _ => .error (.wrongLength op (rest.length + 1))

/-- The layout `[0x04, addr]` with a read frame of four bytes (R107). -/
def decodeReadRegister (op : Byte) (rest : List Byte) (n : Nat) : Except Reject Instr :=
  match rest with
  | [addr] => if n = 4 then .ok (.readRegister addr) else .error (.wrongReadLength op n)
  | _ => .error (.wrongLength op (rest.length + 1))

/-- The layout `[0x06, addr] ++ data`, 3 to 256 bytes (R108, R118). -/
def decodeWriteEEPROM (op : Byte) (rest : List Byte) (n : Nat) : Except Reject Instr :=
  match rest with
  | [] => .error (.wrongLength op 1)
  | addr :: data =>
      if 1 ≤ data.length ∧ data.length ≤ Config.eepromLimit then
        if n = 0 then .ok (.writeEEPROM addr.toNat data) else .error (.wrongReadLength op n)
      else .error (.wrongLength op (data.length + 2))

/-- The layout `[0x07, addr, length]` with a read frame of `length` bytes (R109). -/
def decodeReadEEPROM (op : Byte) (rest : List Byte) (n : Nat) : Except Reject Instr :=
  match rest with
  | [addr, length] =>
      if n = length.toNat then .ok (.readEEPROM addr.toNat length.toNat) else .error (.wrongReadLength op n)
  | _ => .error (.wrongLength op (rest.length + 1))

/-- The layout `[0x09, validBits] ++ payload`, 3 to 262 bytes (R110, R118). -/
def decodeSendData (op : Byte) (rest : List Byte) (n : Nat) : Except Reject Instr :=
  match rest with
  | [] => .error (.wrongLength op 1)
  | validBits :: payload =>
      if 1 ≤ payload.length ∧ payload.length ≤ Config.maxSend then
        if n = 0 then .ok (.sendData payload validBits.toNat) else .error (.wrongReadLength op n)
      else .error (.wrongLength op (payload.length + 2))

/-- The layout `[0x0A, 0x00]`; the length is that of the read frame and is not sent (R111). -/
def decodeReadData (op : Byte) (rest : List Byte) (n : Nat) : Except Reject Instr :=
  match rest with
  | [zero] => if zero = 0x00 then .ok (.readData n) else .error (.wrongConstant op zero)
  | _ => .error (.wrongLength op (rest.length + 1))

/-- The layout `[0x11, txProfile, rxProfile]`, three bytes (R113). -/
def decodeLoadRFConfig (op : Byte) (rest : List Byte) (n : Nat) : Except Reject Instr :=
  match rest with
  | [tx, rx] => if n = 0 then .ok (.loadRFConfig tx rx) else .error (.wrongReadLength op n)
  | _ => .error (.wrongLength op (rest.length + 1))

/-- The layout `[opcode, 0x00]` of RFOn and RFOff, two bytes (R114, R115). -/
def decodeRf2 (i : Instr) (op : Byte) (rest : List Byte) (n : Nat) : Except Reject Instr :=
  match rest with
  | [zero] =>
      if zero = 0x00 then (if n = 0 then .ok i else .error (.wrongReadLength op n))
      else .error (.wrongConstant op zero)
  | _ => .error (.wrongLength op (rest.length + 1))

/-- The decoder: byte 0 names the command, and the numbers of bytes are checked against its layout (R116, R117, R118). SwitchMode
has no layout (R112), so that its opcode alone is the request for it, whatever else the record holds (R186, log entry 9).
Operand values the block itself rejects (R117, second sentence) are decoded: rejecting them is the meaning's work. -/
def decode (e : Encoding) : Except Reject Instr :=
  match e.frame with
  | [] => .error .noOpcode
  | op :: rest =>
      match op.toNat with
      | 0x00 => decodeReg6 .writeRegister op rest e.readLen
      | 0x01 => decodeReg6 .writeRegisterOrMask op rest e.readLen
      | 0x02 => decodeReg6 .writeRegisterAndMask op rest e.readLen
      | 0x04 => decodeReadRegister op rest e.readLen
      | 0x06 => decodeWriteEEPROM op rest e.readLen
      | 0x07 => decodeReadEEPROM op rest e.readLen
      | 0x09 => decodeSendData op rest e.readLen
      | 0x0A => decodeReadData op rest e.readLen
      | 0x0B => .ok .switchMode
      | 0x11 => decodeLoadRFConfig op rest e.readLen
      | 0x16 => decodeRf2 .rfOn op rest e.readLen
      | 0x17 => decodeRf2 .rfOff op rest e.readLen
      | _ => .error (.unlistedOpcode op)

/-- The encoder: the write frame and the size of the read frame of a command, from the layouts R104 to R115. Of the records that
ask for SwitchMode, which has no layout (R112), it writes the shortest (DESIGN CHOICE, log entry 9). -/
def encode : Instr → Encoding
  | .writeRegister addr value => ⟨0x00 :: addr :: le32 value, 0⟩
  | .writeRegisterOrMask addr mask => ⟨0x01 :: addr :: le32 mask, 0⟩
  | .writeRegisterAndMask addr mask => ⟨0x02 :: addr :: le32 mask, 0⟩
  | .readRegister addr => ⟨[0x04, addr], 4⟩
  | .writeEEPROM addr data => ⟨0x06 :: BitVec.ofNat 8 addr :: data, 0⟩
  | .readEEPROM addr length => ⟨[0x07, BitVec.ofNat 8 addr, BitVec.ofNat 8 length], length⟩
  | .sendData bytes validBits => ⟨0x09 :: BitVec.ofNat 8 validBits :: bytes, 0⟩
  | .readData length => ⟨[0x0A, 0x00], length⟩
  | .switchMode => ⟨[0x0B], 0⟩
  | .loadRFConfig tx rx => ⟨[0x11, tx, rx], 0⟩
  | .rfOn => ⟨[0x16, 0x00], 0⟩
  | .rfOff => ⟨[0x17, 0x00], 0⟩

/-- The number of bytes of the shortest frame with this opcode that is at least `bytes` long where the layout is variable
(R118). -/
def tableFrameLength (opcode bytes : Nat) : Nat :=
  match opcode with
  | 0x00 | 0x01 | 0x02 => 6
  | 0x04 | 0x0A | 0x16 | 0x17 => 2
  | 0x07 | 0x11 => 3
  | 0x06 | 0x09 => max 3 bytes
  | _ => max 1 bytes

/-- The size of the read frame that goes with the frame of a table word (R102): four bytes for ReadRegister, byte 2 of the
frame for ReadEEPROM, and 0 for ReadData, whose length is no bit of the word. -/
def tableReadLength (opcode w : Nat) : Nat :=
  match opcode with
  | 0x04 => 4
  | 0x07 => w / 65536 % 256
  | _ => 0

/-- The encoding a word of the opcode table stands for: byte k of the frame is bits 8k+7 to 8k of `w`, and the bits from
`nbits` up are 0. -/
def tableEncoding (nbits w : Nat) : Encoding :=
  let v := w % 2 ^ nbits
  { frame := (List.range (tableFrameLength (v % 256) (nbits / 8))).map fun k => BitVec.ofNat 8 (v / 256 ^ k)
    readLen := tableReadLength (v % 256) v }

/-- The instruction the decoder reads from a word of the opcode table, and none where it refuses. -/
def decodeTableWord (nbits w : Nat) : Option Instr :=
  match decode (tableEncoding nbits w) with
  | .ok i => some i
  | .error _ => none

end Sys2Proof
end

