-- ==== Sys2Proof/Machine/State.lean ====
section
/-! DEFINITION. All the state the spec gives the machine, as plain data: the block XCVR (R20 to R29), the front-end FE and the
tag behind it (R30 to R50, R60), the client port (R23) and the inputs from outside; the state after reset (R52, R53); and
the reasons a step can stop. -/

namespace Sys2Proof.Machine

/-- `bt_phase`, the phase of the bus transport (R25, R133). -/
inductive BtPhase where
  | idle
  | waitReady
  | settleA
  | xfer
  | waitBusy
  | settleD
  | waitDone
deriving DecidableEq, Repr

/-- `bt_dir`, the direction of the current frame (R25). -/
inductive BtDir where
  | wr
  | rd
deriving DecidableEq, Repr

/-- `dc_phase`, the phase of the direct command interface (R27). -/
inductive DcPhase where
  | idle
  | check
  | write
  | read
  | poll
  | clear
deriving DecidableEq, Repr

/-- `dc_kind`, the kind of the direct command in progress (R27): the eleven direct commands of the client port (R23). -/
inductive DirectKind where
  | writeRegister
  | writeRegisterOrMask
  | writeRegisterAndMask
  | readRegister
  | writeEEPROM
  | readEEPROM
  | sendData
  | readData
  | loadRFConfig
  | setRFOn
  | setRFOff
deriving DecidableEq, Repr

/-- `pe_stage`, the stage of the protocol engine (R29, R202). -/
inductive PeStage where
  | idle
  | crcConfigured
  | transmitting
  | awaitingResponse
  | responseFetched
  | classified
deriving DecidableEq, Repr

/-- The closed ErrorCode enumeration (R214). -/
inductive ErrorCode where
  | noCard
  | ok
  | notSupported
  | notRecognized
  | optionNotSupported
  | unknownError
  | blockNotAvailable
  | blockAlreadyLocked
  | blockLocked
  | blockNotProgrammed
  | blockNotLocked
  | customCommandError (code : Byte)
deriving DecidableEq, Repr

/-- The kind of a ParamError (R260, R262). -/
inductive ParamKind where
  | badRegister
  | badEepromRange
  | badSendLength
  | badValidBits
  | badReadLength
deriving DecidableEq, Repr

/-- The cause of a BusTimeout (R260, R264). -/
inductive BusCause where
  | waitReady
  | waitBusyAssert
  | waitBusyRelease
  | irqPoll
deriving DecidableEq, Repr

/-- The closed set of outcomes an operation of the block can end with (R260). -/
inductive OpOutcome where
  | ok
  | paramError (kind : ParamKind)
  | unsupported
  | busTimeout (cause : BusCause)
  /-- It carries the 3-bit transceive state read (R265). -/
  | preconditionViolation (state : BitVec 3)
  | noCard
  | tagError (code : ErrorCode)
deriving DecidableEq, Repr

/-- A CRC control of a protocol request (R201, R203). -/
inductive CrcControl where
  | on
  | off
  | keep
deriving DecidableEq, Repr

/-- The eight transceive states, in the order of their numbers 0 to 7 (R39, R194). -/
inductive TransceiveState where
  | idle
  | waitTransmit
  | transmitting
  | waitReceive
  | waitForData
  | receiving
  | loopBack
  | reserved
deriving DecidableEq, Repr

/-- The eight named flags of an interrupt-status snapshot (R33, R191). -/
structure IrqFlags where
  rx : Bool
  tx : Bool
  idle : Bool
  rfOffDet : Bool
  rfOnDet : Bool
  txRfOff : Bool
  txRfOn : Bool
  rxSofDet : Bool
deriving DecidableEq, Repr

/-- The operands of ProtocolTransact (R201). -/
structure ProtocolRequest where
  req : List Byte
  validBits : Nat
  crcTx : CrcControl
  crcRx : CrcControl
  transceiveCycle : Bool
  classify : Bool
deriving DecidableEq, Repr

/-- What an operation delivers beside its outcome (R102, R190, R193, R195, R218). -/
inductive Result where
  | none
  /-- The 32-bit value of ReadRegister. -/
  | value (v : Word)
  /-- The bytes of ReadEEPROM and ReadData. -/
  | bytes (b : List Byte)
  /-- The snapshot of GetIrqStatus and its decoded flags. -/
  | irqStatus (snapshot : Word) (flags : IrqFlags)
  /-- The state GetTransceiveState decoded. -/
  | transceiveState (state : TransceiveState)
  /-- The level IsIrqAsserted sampled. -/
  | line (level : Bool)
  /-- The response of ProtocolTransact, and the extension flag where it is defined (R215, R217, R218). -/
  | response (resp : List Byte) (ext : Option Bool)
deriving DecidableEq, Repr

/-- The completion record of an operation (R23, R218). -/
structure Completion where
  outcome : OpOutcome
  result : Result
deriving DecidableEq, Repr

/-- What happens at the bus-side ports, and each move of the two sequencers, one event each; the model's own record of
what an observer of the ports sees (log entry 6). -/
inductive Event where
  /-- `bt_phase` is given a value (R133). -/
  | phase (p : BtPhase)
  /-- `pe_stage` is given a value (R202). -/
  | stage (p : PeStage)
  /-- BUSY is sampled at this level (R130 steps 1, 4, 6). -/
  | busy (level : Bool)
  /-- `sel` changes to this value (R130 steps 2 and 5, R138, R290). -/
  | select (on : Bool)
  /-- A hold of `T_SETTLE` (R135). -/
  | settle
  /-- One byte of a write frame is sent; the byte captured meanwhile is discarded (R21). -/
  | sent (out : Byte)
  /-- One byte of a read frame: what is sent and what is captured (R21). -/
  | captured (out : Byte) (inp : Byte)
  /-- The IRQ line is sampled at this level (R195). -/
  | irq (level : Bool)
  /-- The reset event of the block (R290). -/
  | reset
deriving DecidableEq, Repr

/-- The registers of the bus transport (R25) and its frame buffers (R26). -/
structure BusRegs where
  /-- `sel`, the logical select output (R15, R25). -/
  sel : Bool
  /-- `bt_phase` (R25). -/
  phase : BtPhase
  /-- `bt_dir` (R25). -/
  dir : BtDir
  /-- `bt_idx`, the index of the next byte of the frame (R25). -/
  idx : Nat
  /-- `bt_timer`, the time in the current wait, in samples (R25). -/
  timer : Nat
  /-- `txf`, the bytes of the write frame (R26). -/
  txf : List Byte
  /-- `txf_len` (R26). -/
  txfLen : Nat
  /-- `rxf`, the bytes captured in the read frame (R26). -/
  rxf : List Byte
  /-- `rxf_len`, the number of bytes to capture (R26). -/
  rxfLen : Nat
deriving DecidableEq, Repr

/-- The registers of the direct command interface (R27). -/
structure DcRegs where
  /-- `dc_kind` (R27). -/
  kind : DirectKind
  /-- `dc_phase` (R27). -/
  phase : DcPhase
  /-- `dc_polls`, the status polls made so far (R27). -/
  polls : Nat
deriving DecidableEq, Repr

/-- The registers of the protocol engine (R29). -/
structure PeRegs where
  /-- `pe_stage` (R29). -/
  stage : PeStage
  /-- `pe_polls`, the status polls made so far (R29). -/
  polls : Nat
  /-- `pe_len`, 9 bits (R29). -/
  len : BitVec 9
  /-- `pe_resp`, the response bytes (R29). -/
  resp : List Byte
  /-- `pe_outcome` (R29). -/
  outcome : OpOutcome
  /-- `pe_err`, with the raw byte of a CustomCommandError (R29). -/
  err : ErrorCode
  /-- `pe_ext`, the extension flag (R29). -/
  ext : Bool
  /-- The latched operands of the request in progress (R29). -/
  request : ProtocolRequest
deriving DecidableEq, Repr

/-- The state registers of the block XCVR (R25 to R29) and its reset output (R22). -/
structure Xcvr where
  /-- `RST`, true when active (R22). -/
  rst : Bool
  /-- `xc_busy`, from the acceptance of an operation to its completion (R25). -/
  xcBusy : Bool
  bus : BusRegs
  dc : DcRegs
  /-- `irq_snap`, the value of the last GetIrqStatus (R28). -/
  irqSnap : Word
  pe : PeRegs
deriving DecidableEq, Repr

/-- Which front-end is attached (R2, R60): the reference front-end FE_REF, or any front-end, whose own actions, line levels
and open values are inputs. -/
inductive FeKind where
  | reference
  | unconstrained
deriving DecidableEq, Repr

/-- One action the front-end takes on its own (R40, R89): it sets status flags, and moves RX_STATUS, the transceive state,
the other bits of RF_STATUS, the receive buffer, the interrupt line and the RF field where a field says so. -/
structure FeAct where
  /-- The flags of IRQ_STATUS it sets; it clears none (R33, R40). -/
  irqSet : Word
  rxStatus : Option Word
  ts : Option (BitVec 3)
  rfStatusRest : Option Word
  rxbuf : Option (List Byte)
  irq : Option Bool
  /-- The RF field, where no flag it sets says what the field is (R181, R182; log entry 31). -/
  rfOn : Option Bool
deriving DecidableEq, Repr

/-- One answer of the simulated tag (R64): to which transmitted bytes and valid-bit count (none: to any), with which bytes
(an empty answer is silence), and whether the tag gives it once only, which lets a list of rules carry the tag's own
hidden state (R50). -/
structure TagRule where
  request : Option (List Byte × Nat)
  answer : List Byte
  once : Bool
deriving DecidableEq, Repr

/-- The EEPROM as a list of address and byte pairs in canonical form: addresses strictly rising (R43). An address that is
not listed has never been written, and reads as a free value. -/
abbrev Memory := List Host.Cell

/-- What the front-end holds (R30 to R45, R47), with the tag behind it. -/
structure FeStore where
  /-- SYSTEM_CONFIG, 0x00 (R31). -/
  systemConfig : Word
  /-- IRQ_ENABLE, 0x01 (R32). -/
  irqEnable : Word
  /-- IRQ_STATUS, 0x02 (R33). IRQ_CLEAR, 0x03, holds nothing: a write to it clears bits here (R34). -/
  irqStatus : Word
  /-- TRANSCEIVE_CONTROL, 0x04 (R35). -/
  transceiveControl : Word
  /-- CRC_RX_CONFIG, 0x12 (R36). -/
  crcRxConfig : Word
  /-- RX_STATUS, 0x13 (R37). -/
  rxStatus : Word
  /-- CRC_TX_CONFIG, 0x19 (R38). -/
  crcTxConfig : Word
  /-- The transceive state, the 3-bit field of RF_STATUS, 0x1D (R39, R47). -/
  ts : BitVec 3
  /-- RF_STATUS: its bits outside the state field are these (R39, U12). -/
  rfStatusRest : Word
  /-- Registers of a widened `DEFINED_REGS` that have been written, addresses strictly rising (R30, R84). -/
  others : List (Nat × Word)
  /-- EEPROM (R43). -/
  eeprom : Memory
  /-- `TXBUF` (R44). -/
  txbuf : List Byte
  /-- `tx_valid_bits`, 0 to 7 (R44). -/
  txValidBits : BitVec 3
  /-- `RXBUF` (R45). -/
  rxbuf : List Byte
  /-- Whether the RF field is on (R47). -/
  rfOn : Bool
  /-- The loaded transmit profile (R47). -/
  cfgTx : Byte
  /-- The loaded receive profile (R47). -/
  cfgRx : Byte
  /-- The simulated tag behind FE_REF; no rule, no tag (R12, R64). -/
  tag : List TagRule
  /-- The model's own: which unknown state the never-written EEPROM bytes belong to (log entry 3). -/
  epoch : Nat
  /-- The model's own: which unknown state the never-written registers belong to (log entry 3). -/
  regEpoch : Nat
  /-- The model's own: how many reads of IRQ_CLEAR FE has answered in that state (log entries 3 and 14). -/
  clearReads : Nat
  /-- The model's own: the number of the next free value (log entry 3). -/
  draws : Nat
deriving DecidableEq, Repr

/-- What an unconstrained front-end does next, where the spec leaves it open: inputs of the machine (R2, R12, R89). -/
structure FeInputs where
  /-- The next samples of BUSY (R46, U19). -/
  busy : List Bool
  /-- The next bytes on `BUS_IN` in read frames (R2, R12). -/
  byte : List Byte
  /-- The next samples of IRQ (R46, U19). -/
  irq : List Bool
  /-- What it does on its own before each write frame it processes (R89). -/
  acts : List FeAct
deriving DecidableEq, Repr

/-- The front-end FE (R2, R30 to R50). -/
structure FrontEnd where
  kind : FeKind
  store : FeStore
  /-- The BUSY line, true when FE signals busy (R46). -/
  busy : Bool
  /-- The IRQ line as an unconstrained FE drives it, true when asserted (R46). -/
  irq : Bool
  /-- The bytes of the write frame FE has taken from the bus and not yet processed (R49). -/
  frameIn : List Byte
  /-- The bytes FE has prepared for the read frame (R154). -/
  reply : List Byte
  inputs : FeInputs
deriving DecidableEq, Repr

/-- One operation record at the client port (R23). -/
inductive Request where
  /-- A direct command. -/
  | direct (i : Instr)
  /-- A direct command as its encoding (R100, R102), which the block decodes. -/
  | encoded (e : Encoding)
  | getIrqStatus
  | clearIrqStatus (mask : Word)
  | getTransceiveState
  | isIrqAsserted
  | protocolTransact (p : ProtocolRequest)
  /-- An operation kind that R23 does not list, whatever its number (R263). -/
  | unlisted (kind : Nat)
deriving DecidableEq, Repr

/-- Why a step can stop with a fault. -/
inductive Fault where
  /-- Raised by `step` in a state whose `xc_busy` is 1: the block accepts an operation only when idle (R23), and between two
  steps of this machine it always is (log entry 18). Safe: no run from a state with `xc_busy` = 0 reaches it. -/
  | operationInProgress
deriving DecidableEq, Repr

/-- Why a step can be refused. FE_REF "refuses (the simulation stops with a named error)" (R66): each of its refusals is noted
when it processes the frame, and ends the step (log entry 20). -/
inductive Refusal where
  /-- Raised by `exec` for an instruction without a meaning. Safe. -/
  | notModelled (mnemonic : String)
  /-- Raised by `step` for a record that is no encoding of a listed command: a frame decoder refuses it (R117). Safe. -/
  | malformedRecord (why : Reject)
  /-- Raised by WriteRegister with FE_REF attached and a status register addressed: "the simulation refuses" (R62). Safe. -/
  | frontEndRefusesWrite (addr : Byte)
  /-- Raised by the two masked writes with FE_REF attached and a status register or IRQ_CLEAR addressed: "both masked forms
  refuse" (R62). Safe. -/
  | frontEndRefusesMaskedWrite (addr : Byte)
  /-- Raised by ReadRegister with FE_REF attached and IRQ_CLEAR addressed: "the simulation refuses" (R62). Safe. -/
  | frontEndRefusesRead (addr : Byte)
  /-- Raised by ReadData, and by the fetch of ProtocolTransact, with FE_REF attached and fewer bytes received: FE_REF
  "refuses if n > len(rxbuf)" (R64). Safe. -/
  | frontEndRefusesReadData (length : Nat)
  /-- Raised by FE_REF for a frame that is none of R62 to R65 (R66). The block sends none (R117). Safe. -/
  | frontEndRefusesFrame (why : Reject)
  /-- Raised by FE_REF for a frame whose operands are outside its state (R60): a register address outside `DEFINED_REGS`, an EEPROM
  range that leaves 0 to 253, more than 7 valid bits (R103), a length R117 lets no frame have; the kind is the one the block's own
  check gives it (R66). The block sends none (R117). Safe. -/
  | frontEndRefusesOperands (kind : ParamKind)
  /-- Raised by FE_REF for a frame with the opcode 0x0B (R66). The block sends none (R112). Safe. -/
  | frontEndRefusesSwitchMode
  /-- Raised by FE_REF for "a read frame that does not follow a read command" (R66). The block sends none (R132). Safe. -/
  | frontEndRefusesReadFrame
deriving DecidableEq, Repr

/-- The whole machine. -/
structure State where
  /-- The open parameters (R10, R11). -/
  params : Params
  /-- The block. -/
  xcvr : Xcvr
  /-- The front-end. -/
  fe : FrontEnd
  /-- The operations CLIENT issues next, in order (R23, R24). -/
  requests : List Request
  /-- The completion record of the last operation, until the next is accepted (R23, R310). -/
  completion : Option Completion
  /-- Input: the reset event arrives after this many more bus actions; none, it does not (R290). -/
  resetIn : Option Nat
  /-- The named error FE_REF's simulation has stopped with during the operation in progress, if it has (R66). -/
  refused : Option Refusal
  /-- The model's own: every event so far, the newest first (log entry 6). -/
  trace : List Event
deriving DecidableEq, Repr

/-- What a front-end in unknown state number `d` holds: every register, buffer and profile is a free value (R52, U2). The tag
stays. -/
def FeStore.unknown (d : Nat) (tag : List TagRule) : FeStore where
  systemConfig := Config.freeReg d 0x00
  irqEnable := Config.freeReg d 0x01
  irqStatus := Config.freeReg d 0x02
  transceiveControl := Config.freeReg d 0x04
  crcRxConfig := Config.freeReg d 0x12
  rxStatus := Config.freeReg d 0x13
  crcTxConfig := Config.freeReg d 0x19
  ts := (Config.freeWord d).extractLsb' 0 3
  rfStatusRest := Config.freeReg d 0x1D
  others := []
  eeprom := []
  txbuf := (Config.freeBytes d).take Config.maxSend
  txValidBits := (Config.freeWord (d + 1)).extractLsb' 0 3
  rxbuf := (Config.freeBytes (d + 1)).take Config.maxRead
  rfOn := Config.freeBool d
  cfgTx := Config.freeByte d
  cfgRx := Config.freeByte (d + 1)
  tag := tag
  epoch := d
  regEpoch := d
  clearReads := 0
  draws := d + 3

/-- A front-end in unknown state number `d`: what it holds and its lines are free. FE_REF keeps BUSY at 0 whenever no frame is
open (R61). -/
def FrontEnd.unknown (d : Nat) (fe : FrontEnd) : FrontEnd where
  kind := fe.kind
  store := FeStore.unknown d fe.store.tag
  busy := match fe.kind with
    | .reference => false
    | .unconstrained => Config.freeBool (d + 1)
  irq := Config.freeBool (d + 2)
  frameIn := []
  reply := []
  inputs := fe.inputs

/-- The front-end at reset: in unknown state 0, its lines free too (R52, R291), with no tag behind it and no input pending. -/
def FrontEnd.reset : FrontEnd where
  kind := .unconstrained
  store := FeStore.unknown 0 []
  busy := Config.freeBool 1
  irq := Config.freeBool 2
  frameIn := []
  reply := []
  inputs := ⟨[], [], [], []⟩

/-- XCVR after reset (R53). `sel`, `RST`, the phases, the counters and `xc_busy` are the spec's; every other register is one
the spec leaves unspecified and no rule reads before writing it, and holds the value given here (DESIGN CHOICE, log
entry 2). -/
def Xcvr.reset : Xcvr where
  rst := false
  xcBusy := false
  bus :=
    { sel := false, phase := .idle, dir := .wr, idx := 0, timer := 0, txf := [], txfLen := 0, rxf := [], rxfLen := 0 }
  dc := { kind := .writeRegister, phase := .idle, polls := 0 }
  irqSnap := 0
  pe :=
    { stage := .idle, polls := 0, len := 0, resp := [], outcome := .ok, err := .unknownError, ext := false
      request := ⟨[], 0, .keep, .keep, false, false⟩ }

/-- The machine right after reset: the block as R53 says, FE in an unknown state (R52), no operation issued. The front-end
attached is one the spec does not constrain, not FE_REF (R2; DESIGN CHOICE, log entry 1). -/
def State.reset : State where
  params := Params.default
  xcvr := Xcvr.reset
  fe := FrontEnd.reset
  requests := []
  completion := none
  resetIn := none
  refused := none
  trace := []

end Sys2Proof.Machine
end

