-- ==== Sys2Proof/Machine/Ops.lean ====
section
/-! DEFINITION. The shared operations: sparse stores, the front-end's register file and EEPROM, free values, events, the three
ways a bus operation can come out, and the end of an operation, which stands in this hardware where other machines take an
exception and return from it (R279, R280). -/

namespace Sys2Proof.Machine

/-! ## Sparse stores: lists of key and value with strictly rising keys -/

/-- The value listed for a key. -/
def Store.lookup {α : Type} (k : Nat) : List (Nat × α) → Option α
  | [] => none
  | (a, v) :: rest => if a = k then some v else Store.lookup k rest

/-- List a value for a key, keeping the keys rising. -/
def Store.insert {α : Type} (k : Nat) (v : α) : List (Nat × α) → List (Nat × α)
  | [] => [(k, v)]
  | (a, w) :: rest =>
      if k < a then (k, v) :: (a, w) :: rest
      else if k = a then (k, v) :: rest
      else (a, w) :: Store.insert k v rest

/-- Every key is at least `low` and the keys rise strictly. -/
def Store.risingFrom {α : Type} (low : Nat) : List (Nat × α) → Bool
  | [] => true
  | (a, _) :: rest => decide (low ≤ a) && Store.risingFrom (a + 1) rest

/-- The canonical form of a store: keys strictly rising. -/
def Store.rising {α : Type} (m : List (Nat × α)) : Bool := Store.risingFrom 0 m

/-- The canonical form of the EEPROM. An unlisted byte has no value of its own, so no entry can equal it. -/
def Memory.wf (m : Memory) : Bool := Store.rising m

/-- What the EEPROM lists at an address; none where nothing has been written. -/
def Memory.read (m : Memory) (addr : Nat) : Option Byte := Store.lookup addr m

/-- Write one EEPROM byte. The EEPROM has the addresses 0 to 253 only (R43, R85). -/
def Memory.write (addr : Nat) (v : Byte) (m : Memory) : Memory :=
  if addr < Config.eepromLimit then Store.insert addr v m else m

/-- `MemWrite(EEPROM, addr, n, v)`: byte 0 of the data at `addr` (R14, R162). -/
def Memory.writeBytes (addr : Nat) : List Byte → Memory → Memory
  | [], m => m
  | b :: rest, m => Memory.writeBytes (addr + 1) rest (Memory.write addr b m)

/-! ## The front-end's register file and EEPROM -/

/-- The byte of the EEPROM at an address: what was written there, and a free value where nothing was (R43, U18). -/
def FeStore.eepromByte (f : FeStore) (addr : Nat) : Byte :=
  (Memory.read f.eeprom addr).getD (Config.freeEeprom f.epoch addr)

/-- `MemRead(EEPROM, addr, n)`: the byte at `addr` first (R14, R161). -/
def FeStore.eepromBytes (f : FeStore) (addr n : Nat) : List Byte :=
  (List.range n).map fun i => f.eepromByte (addr + i)

/-- A 3-bit state at the place of the state field (R39). -/
def stateField (tsShift : Nat) (ts : BitVec 3) : Word := (ts.setWidth 32) <<< tsShift

/-- The value of RF_STATUS: the state field with the other bits beside it (R39), and the state field alone with FE_REF,
which returns `le32(ts * 2^TS_SHIFT)` (R62). -/
def FeStore.rfStatus (p : Params) (kind : FeKind) (f : FeStore) : Word :=
  match kind with
  | .reference => stateField p.tsShift f.ts
  | .unconstrained => (f.rfStatusRest &&& ~~~(stateField p.tsShift 7)) ||| stateField p.tsShift f.ts

/-- `RegRead(a)` (R14, R30 to R39). IRQ_CLEAR holds nothing; what a read of it returns is not in the source, and is the next
free value (R34, U5). -/
def FeStore.regRead (p : Params) (kind : FeKind) (addr : Byte) (f : FeStore) : Word :=
  match addr.toNat with
  | 0x00 => f.systemConfig
  | 0x01 => f.irqEnable
  | 0x02 => f.irqStatus
  | 0x03 => Config.freeClear f.regEpoch f.clearReads
  | 0x04 => f.transceiveControl
  | 0x12 => f.crcRxConfig
  | 0x13 => f.rxStatus
  | 0x19 => f.crcTxConfig
  | 0x1D => f.rfStatus p kind
  | n => (Store.lookup n f.others).getD (Config.freeReg f.regEpoch n)

/-- `reg[a] <- v` for a plain storage register (R151). The four special addresses have meanings of their own and store nothing
here. -/
def FeStore.setReg (addr : Byte) (v : Word) (f : FeStore) : FeStore :=
  match addr.toNat with
  | 0x00 => { f with systemConfig := v }
  | 0x01 => { f with irqEnable := v }
  | 0x02 => f
  | 0x03 => f
  | 0x04 => { f with transceiveControl := v }
  | 0x12 => { f with crcRxConfig := v }
  | 0x13 => f
  | 0x19 => { f with crcTxConfig := v }
  | 0x1D => f
  | n => { f with others := Store.insert n v f.others }

/-- The registers FE keeps a status in: IRQ_STATUS, RX_STATUS, RF_STATUS (R33, R37, R39). -/
def isStatusReg (addr : Byte) : Bool := addr = 0x02 || addr = 0x13 || addr = 0x1D

/-- The plain storage registers: every address that is neither a status register nor IRQ_CLEAR (R62, R155). -/
def isPlainReg (addr : Byte) : Bool := !isStatusReg addr && !(addr = 0x03)

/-- The register touched takes any value (U5). A masked write aimed at IRQ_CLEAR may clear or set any flag. -/
def FeStore.scrambleReg (addr : Byte) (f : FeStore) : FeStore :=
  match addr.toNat with
  | 0x02 | 0x03 => { f with irqStatus := Config.freeWord f.draws, draws := f.draws + 1 }
  | 0x13 => { f with rxStatus := Config.freeWord f.draws, draws := f.draws + 1 }
  | 0x1D =>
      { f with
        ts := (Config.freeWord f.draws).extractLsb' 0 3
        rfStatusRest := Config.freeWord (f.draws + 1)
        draws := f.draws + 2 }
  | _ => f

/-- A frame was cut short: FE may have applied it, part of it, or none, and all it holds is free from then on (U2, R138,
R290). -/
def FrontEnd.cutFrame (fe : FrontEnd) : FrontEnd := FrontEnd.unknown fe.store.draws fe

/-- The field of an unconstrained FE is unknown after its flag did not appear (R181, R182): a free value (log entry 31). The
field of FE_REF is what its own rules make it (R65). -/
def FrontEnd.fieldUnknown (fe : FrontEnd) : FrontEnd :=
  match fe.kind with
  | .reference => fe
  | .unconstrained =>
      { fe with store := { fe.store with rfOn := Config.freeBool fe.store.draws, draws := fe.store.draws + 1 } }

/-! ## State updates and events -/

/-- The electrical select output `SEL_N`: low when select is asserted (R15, R20). -/
def Xcvr.selN (x : Xcvr) : Bool := !x.bus.sel

/-- A frame is in progress and FE has something of it: select is asserted, or it was released and FE has not signalled that it
is done (steps 2 to 6 of R130; log entry 11). -/
def Xcvr.frameInProgress (x : Xcvr) : Bool :=
  x.bus.sel || (x.xcBusy && (x.bus.phase = .settleD || x.bus.phase = .waitDone))

/-- Change the registers of the bus transport. -/
def State.onBus (f : BusRegs → BusRegs) (s : State) : State := { s with xcvr := { s.xcvr with bus := f s.xcvr.bus } }

/-- Change the registers of the direct command interface. -/
def State.onDc (f : DcRegs → DcRegs) (s : State) : State := { s with xcvr := { s.xcvr with dc := f s.xcvr.dc } }

/-- Change the registers of the protocol engine. -/
def State.onPe (f : PeRegs → PeRegs) (s : State) : State := { s with xcvr := { s.xcvr with pe := f s.xcvr.pe } }

/-- Change the front-end. -/
def State.onFe (f : FrontEnd → FrontEnd) (s : State) : State := { s with fe := f s.fe }

/-- FE_REF stops with a named error, if there is one and it has not stopped before (R66). -/
def State.note (r : Option Refusal) (s : State) : State :=
  { s with refused := match s.refused with
      | some first => some first
      | none => r }

/-- Record an event. -/
def State.log (e : Event) (s : State) : State := { s with trace := e :: s.trace }

/-- `bt_phase <- p`; each phase starts with `bt_timer` at 0 (R130, R133, R282). -/
def State.enter (p : BtPhase) (s : State) : State :=
  (s.onBus fun b => { b with phase := p, timer := 0 }).log (.phase p)

/-- `pe_stage <- p` (R200, R202). -/
def State.stage (p : PeStage) (s : State) : State := (s.onPe fun e => { e with stage := p }).log (.stage p)

/-! ## How a bus operation comes out -/

/-- Why an operation ends before its next line: an outcome is raised (R14, `raise`), or the block is reset (R290). -/
inductive Stop where
  | outcome (o : OpOutcome)
  | reset
deriving DecidableEq, Repr

/-- What a piece of an operation comes to: a value and the state it leaves, or the end of the operation. -/
inductive Run (α : Type) where
  | ok (a : α) (s : State)
  | stop (why : Stop) (s : State)
deriving DecidableEq, Repr

/-- Go on with the value and the state, if there are any. -/
def Run.andThen {α β : Type} (r : Run α) (f : α → State → Run β) : Run β :=
  match r with
  | .ok a s => f a s
  | .stop why s => .stop why s

/-- Change the value. -/
def Run.map {α β : Type} (f : α → β) (r : Run α) : Run β :=
  match r with
  | .ok a s => .ok (f a) s
  | .stop why s => .stop why s

/-- The place of one bus action: the reset event lands before it, or its arrival comes one action nearer (R290). -/
def pulse (s : State) : Run Unit :=
  match s.resetIn with
  | none => .ok () s
  | some 0 => .stop .reset s
  | some (n + 1) => .ok () { s with resetIn := some n }

/-! ## Acceptance and the end of an operation (R279, R280): in place of taking an exception and returning from it -/

/-- The block accepts an operation: `xc_busy` is 1 until it completes, and the last completion record is no longer valid
(R23, R25, R310). `rxf` keeps its bytes, which R26 leaves undefined from here to the end of the next read frame (DESIGN CHOICE,
log entry 28). -/
def State.accept (s : State) : State :=
  { s with
    xcvr := { s.xcvr with xcBusy := true, dc := { s.xcvr.dc with phase := .check } }
    completion := none
    refused := none }

/-- The operation ends: its completion record carries the outcome, no state is saved, and the block is idle again, whatever
the outcome (R260, R269, R279). -/
def State.complete (c : Completion) (s : State) : State :=
  { s with
    xcvr :=
      { s.xcvr with
        xcBusy := false
        bus := { s.xcvr.bus with sel := false, phase := .idle }
        dc := { s.xcvr.dc with phase := .idle }
        pe := { s.xcvr.pe with stage := .idle } }
    completion := some c }

/-- `raise BusTimeout(cause)` (R138): `sel` goes to 0 without waiting for BUSY, `bt_phase` to idle, and nothing is retried.
A frame cut short in step 4 or 6 leaves FE in an unknown state (U2); a timeout in step 1 sent nothing. The flag poll of
SetRFOn and SetRFOff runs out between two exchanges, where the bus is idle already, and "the field state is unknown" from
then on (R181). -/
def raiseBusTimeout {α : Type} (cause : BusCause) (s : State) : Run α :=
  let released := if s.xcvr.bus.sel then (s.onBus fun b => { b with sel := false }).log (.select false) else s
  match cause with
  | .irqPoll => .stop (.outcome (.busTimeout cause)) (s.onFe FrontEnd.fieldUnknown)
  | .waitReady => .stop (.outcome (.busTimeout cause)) (released.enter .idle)
  | .waitBusyAssert => .stop (.outcome (.busTimeout cause)) ((released.enter .idle).onFe FrontEnd.cutFrame)
  | .waitBusyRelease => .stop (.outcome (.busTimeout cause)) ((released.enter .idle).onFe FrontEnd.cutFrame)

/-- The reset event of the block (R290): the operation in progress is abandoned without a completion record, `sel` goes to 0
at once, and the block takes the state of R53. FE is not touched, but a frame in progress ends early for it (U2; that a frame
is in progress until FE is done with it is log entry 11). -/
def State.blockReset (s : State) : State :=
  { s with
    xcvr := Xcvr.reset
    fe := if s.xcvr.frameInProgress then s.fe.cutFrame else s.fe
    completion := none
    resetIn := none
    trace := .reset :: s.trace }

/-- A step with no operation at the port: the block drives no frame (R53), and an awaited reset event comes nearer. -/
def State.idleStep (s : State) : State :=
  match s.resetIn with
  | none => s
  | some 0 => s.blockReset
  | some (n + 1) => { s with resetIn := some n }

/-- The end of an operation that delivers a completion record of its own (R218). -/
def finishRun (r : Run Completion) : State :=
  match r with
  | .ok c s => s.complete c
  | .stop (.outcome o) s => s.complete ⟨o, .none⟩
  | .stop .reset s => s.blockReset

/-- What an operation that ran with a front-end of this kind answers: only FE_REF stops with a named error (R66), and then
nothing after it counts. -/
def answer (kind : FeKind) (t : State) : Host.Outcome State Fault Refusal :=
  match kind with
  | .unconstrained => .next t
  | .reference =>
      match t.refused with
      | some r => .refused r
      | none => .next t

/-- One operation from its acceptance to its completion (R23). -/
def performOperation (body : State → Run Completion) (s : State) : Host.Outcome State Fault Refusal :=
  answer s.fe.kind (finishRun (body s.accept))

/-- The completion record of an operation with no result. -/
def Completion.done : Completion := ⟨.ok, .none⟩

end Sys2Proof.Machine
end

