-- ==== Sys2Proof/Machine/Operands.lean ====
section
/-! DEFINITION. The operand checks of the direct commands, all made before any bus exchange (R117, R262, R277), and the frames
FE_REF gives no meaning (R62, R64, R66). -/

namespace Sys2Proof.Machine

/-- `addr ∈ DEFINED_REGS` (R150). -/
def registerDefined (p : Params) (addr : Byte) : Bool := p.definedRegs.contains addr

/-- `addr ≤ 254`, `addr + length ≤ 254` and `length ≥ 1`, on the operands as CLIENT gave them (R160, R163). -/
def eepromInRange (addr length : Nat) : Bool :=
  decide (addr ≤ Config.eepromLimit) && decide (addr + length ≤ Config.eepromLimit) && decide (1 ≤ length)

/-- 1 to 260 bytes (R171). -/
def sendLengthOk (n : Nat) : Bool := decide (1 ≤ n) && decide (n ≤ Config.maxSend)

/-- 0 to 7 valid bits (R171). -/
def validBitsOk (n : Nat) : Bool := decide (n ≤ 7)

/-- 1 to 508 bytes (R175). -/
def readLengthOk (n : Nat) : Bool := decide (1 ≤ n) && decide (n ≤ Config.maxRead)

/-- The outcome of the register check (R150). -/
def registerError (p : Params) (addr : Byte) : Option ParamKind :=
  if registerDefined p addr then none else some .badRegister

/-- The outcome of the EEPROM check (R160). -/
def eepromError (addr length : Nat) : Option ParamKind :=
  if eepromInRange addr length then none else some .badEepromRange

/-- The outcome of the SendData checks: the length is tested first (R171, R277). -/
def sendError (n validBits : Nat) : Option ParamKind :=
  if !sendLengthOk n then some .badSendLength else if !validBitsOk validBits then some .badValidBits else none

/-- The outcome of the ReadData check (R175). -/
def readError (n : Nat) : Option ParamKind := if readLengthOk n then none else some .badReadLength

/-- The first operand check of a direct command that fails (R277 item 2). -/
def paramError (p : Params) : Instr → Option ParamKind
  | .writeRegister addr _ => registerError p addr
  | .writeRegisterOrMask addr _ => registerError p addr
  | .writeRegisterAndMask addr _ => registerError p addr
  | .readRegister addr => registerError p addr
  | .writeEEPROM addr data => eepromError addr data.length
  | .readEEPROM addr length => eepromError addr length
  | .sendData bytes validBits => sendError bytes.length validBits
  | .readData length => readError length
  | .switchMode => none
  | .loadRFConfig _ _ => none
  | .rfOn => none
  | .rfOff => none

/-- The frames of the commands FE_REF gives no meaning, although their operands are inside its state (R62, R64, R66). -/
def refusedByReference (f : FeStore) : Instr → Option Refusal
  | .writeRegister addr _ => if isStatusReg addr then some (.frontEndRefusesWrite addr) else none
  | .writeRegisterOrMask addr _ => if isPlainReg addr then none else some (.frontEndRefusesMaskedWrite addr)
  | .writeRegisterAndMask addr _ => if isPlainReg addr then none else some (.frontEndRefusesMaskedWrite addr)
  | .readRegister addr => if addr = 0x03 then some (.frontEndRefusesRead addr) else none
  | .writeEEPROM _ _ => none
  | .readEEPROM _ _ => none
  | .sendData _ _ => none
  | .readData length => if f.rxbuf.length < length then some (.frontEndRefusesReadData length) else none
  | .switchMode => some .frontEndRefusesSwitchMode
  | .loadRFConfig _ _ => none
  | .rfOn => none
  | .rfOff => none

/-- Whether the front-end refuses the frame of a command: only FE_REF refuses (R66). It refuses operands that the block's own
check would not pass, since its state has nothing for them: its registers are those of `DEFINED_REGS`, its EEPROM is 0 to 253
(R60), its `tx_valid_bits` is 0 to 7 (R44, R103), and "it never returns a made-up value". -/
def FrontEnd.refusesCommand (p : Params) (i : Instr) (fe : FrontEnd) : Option Refusal :=
  match fe.kind with
  | .unconstrained => none
  | .reference =>
      match paramError p i with
      | some kind => some (.frontEndRefusesOperands kind)
      | none => refusedByReference fe.store i

/-- Whether the front-end refuses the write frame it has collected, with a read frame of so many bytes to follow: FE_REF refuses
every frame that is none of R62 to R65 (R66). -/
def FrontEnd.refusesFrame (p : Params) (readLen : Nat) (fe : FrontEnd) : Option Refusal :=
  match fe.kind, decode ⟨fe.frameIn, readLen⟩ with
  | .unconstrained, _ => none
  | .reference, .error why => some (.frontEndRefusesFrame why)
  | .reference, .ok i => fe.refusesCommand p i

/-- Whether the front-end refuses to put a byte on the bus: FE_REF has none outside the read frame of a read command (R66). -/
def FrontEnd.refusesRead (fe : FrontEnd) : Option Refusal :=
  match fe.kind, fe.reply with
  | .reference, [] => some .frontEndRefusesReadFrame
  | _, _ => none

/-- The operand checks as a piece of an operation: `raise ParamError(kind)` (R262). A sub-operation of SetRFOn, SetRFOff or
ProtocolTransact makes its own when it is reached, which can be after frames of its parent only where `DEFINED_REGS` leaves out
a register they use (DESIGN CHOICE, log entry 33). -/
def checkOperands (i : Instr) (s : State) : Run Unit :=
  match paramError s.params i with
  | none => .ok () s
  | some kind => .stop (.outcome (.paramError kind)) s

/-- The kind of direct command of the client port an instruction is (R23, R27). -/
def directKind : Instr → Option DirectKind
  | .writeRegister _ _ => some .writeRegister
  | .writeRegisterOrMask _ _ => some .writeRegisterOrMask
  | .writeRegisterAndMask _ _ => some .writeRegisterAndMask
  | .readRegister _ => some .readRegister
  | .writeEEPROM _ _ => some .writeEEPROM
  | .readEEPROM _ _ => some .readEEPROM
  | .sendData _ _ => some .sendData
  | .readData _ => some .readData
  | .switchMode => none
  | .loadRFConfig _ _ => some .loadRFConfig
  | .rfOn => some .setRFOn
  | .rfOff => some .setRFOff

end Sys2Proof.Machine
end

