-- ==== Sys2Proof/Machine/Flags.lean ====
section
/-! DEFINITION. The bits the block looks at: the named flags of IRQ_STATUS (R33, R191), the state field of RF_STATUS (R193,
R194), the length field of RX_STATUS (R210), the flags byte and the error byte of a tag response (R41, R214, R215). -/

namespace Sys2Proof.Machine

/-- `TX_RFOFF`, bit 8 of IRQ_STATUS, which SetRFOff waits for (R183). -/
def txRfOffBit : Nat := 8

/-- `TX_RFON`, bit 9 of IRQ_STATUS, which SetRFOn waits for (R183). -/
def txRfOnBit : Nat := 9

/-- `RX_SOF_DET`, bit 14 of IRQ_STATUS, which the engine waits for (R208). -/
def rxSofDetBit : Nat := 14

/-- The mask of one bit. -/
def bitMask (n : Nat) : Word := BitVec.ofNat 32 (2 ^ n)

/-- `RX_SOF_DET | IDLE | TX | RX`, the flags the engine clears on its way out (R216). -/
def engineFlags : Word := 0x00004007

/-- The decoder of an interrupt-status snapshot, a pure function of it (R191). -/
def decodeIrq (v : Word) : IrqFlags where
  rx := v.getLsbD 0
  tx := v.getLsbD 1
  idle := v.getLsbD 2
  rfOffDet := v.getLsbD 6
  rfOnDet := v.getLsbD 7
  txRfOff := v.getLsbD 8
  txRfOn := v.getLsbD 9
  rxSofDet := v.getLsbD 14

/-- `v[TS_SHIFT+2 : TS_SHIFT]` (R193). -/
def tsField (tsShift : Nat) (v : Word) : BitVec 3 := v.extractLsb' tsShift 3

/-- The name of a transceive state: list order is numeric order (R194). -/
def transceiveState (n : BitVec 3) : TransceiveState :=
  match n.toNat with
  | 0 => .idle
  | 1 => .waitTransmit
  | 2 => .transmitting
  | 3 => .waitReceive
  | 4 => .waitForData
  | 5 => .receiving
  | 6 => .loopBack
  | _ => .reserved

/-- `w[8:0]`, the response length (R210). -/
def lengthField (w : Word) : BitVec 9 := w.extractLsb' 0 9

/-- `MapError(c)` (R214): 0x10 and 0xA0 to 0xDF are the source's, the other names are the ISO15693 codes of G5, and every other
byte is UnknownError (D19). -/
def mapError (c : Byte) : ErrorCode :=
  match c.toNat with
  | 0x01 => .notSupported
  | 0x02 => .notRecognized
  | 0x03 => .optionNotSupported
  | 0x0F => .unknownError
  | 0x10 => .blockNotAvailable
  | 0x11 => .blockAlreadyLocked
  | 0x12 => .blockLocked
  | 0x13 => .blockNotProgrammed
  | 0x14 => .blockNotLocked
  | n => if 0xA0 ≤ n ∧ n ≤ 0xDF then .customCommandError c else .unknownError

/-- Bit 0 of a response flags byte, the error flag (R41). -/
def errorFlag (f : Byte) : Bool := f.getLsbD 0

/-- Bit 3 of a response flags byte, the extension flag (R41). -/
def extensionFlag (f : Byte) : Bool := f.getLsbD 3

/-- The classification of a response (R215): the outcome, and the extension flag where it is defined. A response of one byte
with the error flag has no code to map, and is UnknownError (D19). -/
def classifyResponse (resp : List Byte) : OpOutcome × Option Bool :=
  let f := resp.headD 0
  if errorFlag f then
    (if resp.length < 2 then .tagError .unknownError else .tagError (mapError ((resp.drop 1).headD 0)), none)
  else (.ok, some (extensionFlag f))

/-- What the length read from RX_STATUS leads to (R211, R212): an outcome, or the number of bytes to fetch. -/
def lengthVerdict (n : Nat) : OpOutcome ⊕ Nat :=
  if n = Config.lenInvalid ∨ n = 0 then .inl .noCard
  else if Config.maxRead < n then .inl (.paramError .badReadLength)
  else .inr n

end Sys2Proof.Machine
end

