-- ==== Sys2Proof/Machine/FrontEnd.lean ====
section
/-! DEFINITION. What the front-end does with a frame: FE_REF as R60 to R66 say, and any other front-end as the command rules say,
with a free value wherever they leave one open. One definition for each command, joined by `FeStore.react` (what it
then holds) and `FeStore.answer` (what it returns). -/

namespace Sys2Proof.Machine

/-! ## Lines -/

/-- BUSY as the block samples it: the next sample of the input if an unconstrained FE has one, else the line (R46, R61). -/
def FrontEnd.busyLevel (fe : FrontEnd) : Bool :=
  match fe.kind with
  | .reference => fe.busy
  | .unconstrained => fe.inputs.busy.headD fe.busy

/-- A sample of BUSY has been taken. -/
def FrontEnd.nextBusy (fe : FrontEnd) : FrontEnd :=
  match fe.kind with
  | .reference => fe
  | .unconstrained => { fe with inputs := { fe.inputs with busy := fe.inputs.busy.tail } }

/-- IRQ as the block samples it (R271): FE_REF asserts it exactly when `reg[0x02] & reg[0x01]` is not zero (R61); for an
unconstrained FE it is an input. -/
def FrontEnd.irqLevel (fe : FrontEnd) : Bool :=
  match fe.kind with
  | .reference => decide (fe.store.irqStatus &&& fe.store.irqEnable ≠ 0)
  | .unconstrained => fe.inputs.irq.headD fe.irq

/-- A sample of IRQ has been taken. -/
def FrontEnd.nextIrq (fe : FrontEnd) : FrontEnd :=
  match fe.kind with
  | .reference => fe
  | .unconstrained => { fe with inputs := { fe.inputs with irq := fe.inputs.irq.tail } }

/-- FE raises BUSY after the last byte of a frame, while select is still asserted (R61, R140). -/
def FrontEnd.raiseBusy (fe : FrontEnd) : FrontEnd := { fe with busy := true }

/-- FE lowers BUSY when it has processed the frame (R61, R140). -/
def FrontEnd.lowerBusy (fe : FrontEnd) : FrontEnd := { fe with busy := false }

/-! ## Bytes -/

/-- The eight bits of a byte in the order they travel, most significant first (R21, R72). -/
def wireBits (b : Byte) : List Bool :=
  [b.getLsbD 7, b.getLsbD 6, b.getLsbD 5, b.getLsbD 4, b.getLsbD 3, b.getLsbD 2, b.getLsbD 1, b.getLsbD 0]

/-- The byte assembled from bits that arrive most significant first. -/
def ofWireBits (bits : List Bool) : Byte :=
  bits.foldl (fun acc bit => (acc <<< 1) ||| (if bit then 1 else 0)) 0

/-- A byte after its eight bits have crossed the byte lane, in either direction (R21). -/
def acrossLane (b : Byte) : Byte := ofWireBits (wireBits b)

/-- Select is asserted for a write frame: FE starts to collect it (R49). -/
def FrontEnd.openFrame (fe : FrontEnd) : FrontEnd := { fe with frameIn := [], reply := [] }

/-- FE takes a byte of a write frame from the bus (R49). -/
def FrontEnd.takeByte (b : Byte) (fe : FrontEnd) : FrontEnd := { fe with frameIn := fe.frameIn ++ [acrossLane b] }

/-- The byte FE puts on the bus in a read frame: the next byte of the input if an unconstrained FE has one, else the next byte
of the answer it prepared, else a free value (R2, R154, U6). FE_REF refuses where it has prepared none
(`FrontEnd.refusesRead`). -/
def FrontEnd.replyByte (fe : FrontEnd) : Byte :=
  let prepared := fe.reply.headD (Config.freeByte fe.store.draws)
  acrossLane (match fe.kind with
    | .reference => prepared
    | .unconstrained => fe.inputs.byte.headD prepared)

/-- FE has put a byte of a read frame on the bus. -/
def FrontEnd.nextReply (fe : FrontEnd) : FrontEnd :=
  let moved : FrontEnd := match fe.reply with
    | [] => { fe with store := { fe.store with draws := fe.store.draws + 1 } }
    | _ :: rest => { fe with reply := rest }
  match fe.kind with
  | .reference => moved
  | .unconstrained => { moved with inputs := { fe.inputs with byte := fe.inputs.byte.tail } }

/-! ## FE's own actions -/

/-- The RF field after an action of FE: TX_RFON set says that the field is up and TX_RFOFF that it is down ("when the field is
up, sets TX_RFON", R181, R182, G10); where the action sets neither or both, it says so itself or leaves the field as it is
(DEDUCED, log entry 31). -/
def FeAct.fieldAfter (a : FeAct) (old : Bool) : Bool :=
  match a.irqSet.getLsbD txRfOnBit, a.irqSet.getLsbD txRfOffBit with
  | true, false => true
  | false, true => false
  | _, _ => a.rfOn.getD old

/-- One action FE takes on its own (R40, R89). -/
def FrontEnd.applyAct (a : FeAct) (fe : FrontEnd) : FrontEnd :=
  { fe with
    store :=
      { fe.store with
        irqStatus := fe.store.irqStatus ||| a.irqSet
        rxStatus := a.rxStatus.getD fe.store.rxStatus
        ts := a.ts.getD fe.store.ts
        rfStatusRest := a.rfStatusRest.getD fe.store.rfStatusRest
        rxbuf := (a.rxbuf.map (List.take Config.maxRead)).getD fe.store.rxbuf
        rfOn := a.fieldAfter fe.store.rfOn }
    irq := a.irq.getD fe.irq }

/-- An unconstrained FE takes its next own action; FE_REF takes none beside its reactions to frames (R60). -/
def FrontEnd.ownAction (fe : FrontEnd) : FrontEnd :=
  match fe.kind, fe.inputs.acts with
  | .unconstrained, a :: rest => { fe.applyAct a with inputs := { fe.inputs with acts := rest } }
  | _, _ => fe

/-! ## The simulated tag of FE_REF -/

/-- The last byte of an RF frame with its bits that are not transmitted set to 0: 1 to 7 valid bits are that many low-order bits,
and 0 means all eight (R78, R173, G6). -/
def lastByte (validBits : Nat) (b : Byte) : Byte := if validBits % 8 = 0 then b else b &&& BitVec.ofNat 8 (2 ^ (validBits % 8) - 1)

/-- What goes over RF: the bytes with the bits that are not transmitted set to 0, and how many bits there are (R78, R173). -/
def rfFrame (bytes : List Byte) (validBits : Nat) : List Byte × Nat :=
  (bytes.dropLast ++ bytes.getLast?.toList.map (lastByte validBits),
    if validBits % 8 = 0 then 8 * bytes.length else 8 * (bytes.length - 1) + validBits % 8)

/-- What FE transmits of its transmit buffer (R44, R173). -/
def FeStore.transmission (f : FeStore) : List Byte × Nat := rfFrame f.txbuf f.txValidBits.toNat

/-- Whether a rule of the tag answers this transmission: the tag hears the bits that go over RF, so two requests that differ only
in bits that are not transmitted are one to it (R78). -/
def TagRule.hears (r : TagRule) (bytes : List Byte) (validBits : Nat) : Bool :=
  match r.request with
  | none => true
  | some q => decide (rfFrame q.1 q.2 = rfFrame bytes validBits)

/-- The tag's answer to a transmission, by the first rule that hears it, and the rules it has from then on (R64, R50). -/
def tagAnswer (bytes : List Byte) (validBits : Nat) : List TagRule → List Byte × List TagRule
  | [] => ([], [])
  | r :: rest =>
      if r.hears bytes validBits then (r.answer, if r.once then rest else r :: rest)
      else
        let later := tagAnswer bytes validBits rest
        (later.1, r :: later.2)

/-! ## Reactions to the register frames -/

/-- The command field of SYSTEM_CONFIG, after a frame addressed to it, which held `old` before. "A write that changes the command
field of SYSTEM_CONFIG starts or stops a transceive cycle" (R83): the state an unconstrained FE is then in is not in the source,
and is a free value (log entry 34). FE_REF (R63): a frame that leaves `CMD_IDLE` in the field makes the state Idle and sets IDLE;
one that leaves `CMD_TRANSCEIVE` makes it WaitTransmit. -/
def FeStore.commandField (p : Params) (kind : FeKind) (addr : Byte) (old : Word) (f : FeStore) : FeStore :=
  match kind with
  | .unconstrained =>
      if addr = 0x00 ∧ f.systemConfig &&& p.cmdMask ≠ old &&& p.cmdMask then
        { f with ts := (Config.freeWord f.draws).extractLsb' 0 3, draws := f.draws + 1 }
      else f
  | .reference =>
      if addr = 0x00 then
        if f.systemConfig &&& p.cmdMask = p.cmdIdle then { f with ts := 0, irqStatus := f.irqStatus ||| 0x00000004 }
        else if f.systemConfig &&& p.cmdMask = p.cmdTransceive then { f with ts := 1 }
        else f
      else f

/-- `[0x00, a] ++ le32(v)`: IRQ_CLEAR clears flags (R34), a status register takes any value (U5), a plain storage register
takes `v` (R151, R62). -/
def FeStore.reactWriteRegister (p : Params) (kind : FeKind) (addr : Byte) (v : Word) (f : FeStore) : FeStore :=
  if addr = 0x03 then { f with irqStatus := f.irqStatus &&& ~~~v }
  else if isStatusReg addr then f.scrambleReg addr
  else (f.setReg addr v).commandField p kind addr f.systemConfig

/-- `[0x01, a] ++ le32(m)`: `reg[a] <- reg[a] | m` as one step of FE (R81, R152). -/
def FeStore.reactOrMask (p : Params) (kind : FeKind) (addr : Byte) (m : Word) (f : FeStore) : FeStore :=
  if isPlainReg addr then (f.setReg addr (f.regRead p kind addr ||| m)).commandField p kind addr f.systemConfig
  else f.scrambleReg addr

/-- `[0x02, a] ++ le32(m)`: `reg[a] <- reg[a] & m` as one step of FE (R81, R153). -/
def FeStore.reactAndMask (p : Params) (kind : FeKind) (addr : Byte) (m : Word) (f : FeStore) : FeStore :=
  if isPlainReg addr then (f.setReg addr (f.regRead p kind addr &&& m)).commandField p kind addr f.systemConfig
  else f.scrambleReg addr

/-- `[0x04, a]`: a read changes no register and clears no flag (R82, R154); the free value a read of IRQ_CLEAR returned is not
returned again. -/
def FeStore.reactReadRegister (addr : Byte) (f : FeStore) : FeStore :=
  if addr = 0x03 then { f with clearReads := f.clearReads + 1 } else f

/-- `[0x04, a]`: FE returns `le32(RegRead(a))` (R154). -/
def FeStore.answerReadRegister (p : Params) (kind : FeKind) (addr : Byte) (f : FeStore) : List Byte :=
  le32 (f.regRead p kind addr)

/-! ## Reactions to the EEPROM frames -/

/-- `[0x06, a] ++ d`: `MemWrite(EEPROM, a, len(d), d)` (R162). -/
def FeStore.reactWriteEEPROM (addr : Nat) (data : List Byte) (f : FeStore) : FeStore :=
  { f with eeprom := Memory.writeBytes addr data f.eeprom }

/-- `[0x07, a, n]`: FE returns `MemRead(EEPROM, a, n)` (R161). -/
def FeStore.answerReadEEPROM (addr n : Nat) (f : FeStore) : List Byte := f.eepromBytes addr n

/-! ## Reactions to the data frames -/

/-- `TXBUF` and `tx_valid_bits` take the payload of a SendData (R170). The block sends 0 to 7 valid bits (R103, R171) and FE_REF
refuses more (R66); of a larger number, for which the source gives no reaction, another FE keeps the low three bits (DESIGN
CHOICE, log entry 22). -/
def FeStore.storeTx (bytes : List Byte) (validBits : Nat) (f : FeStore) : FeStore :=
  { f with txbuf := bytes, txValidBits := BitVec.ofNat 3 validBits }

/-- FE_REF receives an answer whole: RXBUF, RX_STATUS[8:0], RX_SOF_DET and RX, and the state is Idle (R64). -/
def FeStore.receive (r : List Byte) (f : FeStore) : FeStore :=
  { f with
    rxbuf := r
    rxStatus := (f.rxStatus &&& ~~~0x000001FF) ||| BitVec.ofNat 32 r.length
    irqStatus := f.irqStatus ||| 0x00004001
    ts := 0 }

/-- FE_REF transmits (R64): TX is set, the state is WaitReceive, and the simulated tag is asked; an answer of 1 to 508 bytes is
received. -/
def FeStore.transmit (bytes : List Byte) (validBits : Nat) (f : FeStore) : FeStore :=
  let sent : FeStore :=
    { f.storeTx bytes validBits with
      irqStatus := f.irqStatus ||| 0x00000002
      ts := 3
      tag := (tagAnswer bytes validBits f.tag).2 }
  let r := (tagAnswer bytes validBits f.tag).1
  if 1 ≤ r.length ∧ r.length ≤ Config.maxRead then sent.receive r else sent

/-- `[0x09, vb] ++ p`. FE_REF transmits whatever its state (R64). An unconstrained FE takes the payload when its state is
WaitTransmit (R170, R172), and transmits as an action of its own; in another state it may take it or not (U3). -/
def FeStore.reactSendData (kind : FeKind) (bytes : List Byte) (validBits : Nat) (f : FeStore) : FeStore :=
  match kind with
  | .reference => f.transmit bytes validBits
  | .unconstrained =>
      if f.ts = 1 then f.storeTx bytes validBits
      else if Config.freeBool f.draws then { f.storeTx bytes validBits with draws := f.draws + 1 }
      else { f with draws := f.draws + 1 }

/-- The byte at a position of the receive buffer: what was received, below RX_STATUS[8:0], and a free value from there on
(R45, U6). -/
def FeStore.rxByte (f : FeStore) (i : Nat) : Byte :=
  if i < (lengthField f.rxStatus).toNat then f.rxbuf.getD i (Config.freeByte (f.draws + i))
  else Config.freeByte (f.draws + i)

/-- `[0x0A, 0x00]`: FE_REF keeps its buffer (R64); what a second ReadData finds in another FE is open (U7). -/
def FeStore.reactReadData (kind : FeKind) (n : Nat) (f : FeStore) : FeStore :=
  match kind with
  | .reference => f
  | .unconstrained => { f with rxbuf := (Config.freeBytes f.draws).take Config.maxRead, draws := f.draws + n + 1 }

/-- `[0x0A, 0x00]` with a read frame of `n` bytes: the first received byte first (R174). -/
def FeStore.answerReadData (kind : FeKind) (n : Nat) (f : FeStore) : List Byte :=
  match kind with
  | .reference => f.rxbuf.take n
  | .unconstrained => (List.range n).map f.rxByte

/-! ## Reactions to the RF frames -/

/-- A profile byte, where 0xFF means "leave unchanged" (R180). -/
def profile (new old : Byte) : Byte := if new = 0xFF then old else new

/-- What a loaded profile leaves in the registers that configure FE is not in the source (U13, R307): SYSTEM_CONFIG,
TRANSCEIVE_CONTROL, the two CRC registers, the bits of RF_STATUS outside the state field and the registers of a widened
`DEFINED_REGS` take free values (which registers these are is log entry 32). -/
def FeStore.configUnknown (f : FeStore) : FeStore :=
  { f with
    systemConfig := Config.freeReg f.draws 0x00
    transceiveControl := Config.freeReg f.draws 0x04
    crcRxConfig := Config.freeReg f.draws 0x12
    crcTxConfig := Config.freeReg f.draws 0x19
    rfStatusRest := Config.freeReg f.draws 0x1D
    others := []
    regEpoch := f.draws
    clearReads := 0
    draws := f.draws + 1 }

/-- `[0x11, t, r]`: the profiles are loaded (R65, R180). FE_REF stores the two bytes and no more; in another FE a profile has an
effect on its configuration that the source does not give, and (0xFF, 0xFF) has none (R180, U13). -/
def FeStore.reactLoadRFConfig (kind : FeKind) (tx rx : Byte) (f : FeStore) : FeStore :=
  let loaded : FeStore := { f with cfgTx := profile tx f.cfgTx, cfgRx := profile rx f.cfgRx }
  match kind with
  | .reference => loaded
  | .unconstrained => if tx = 0xFF ∧ rx = 0xFF then loaded else loaded.configUnknown

/-- `[0x16, 0x00]`: FE_REF switches the RF field on and sets TX_RFON at once (R65). Another FE has switched it on by now or has
not, a free bit, and says by TX_RFON when it is up, which is an action of its own (R181, R185; log entry 31). -/
def FeStore.reactRFOn (kind : FeKind) (f : FeStore) : FeStore :=
  match kind with
  | .reference => { f with rfOn := true, irqStatus := f.irqStatus ||| bitMask txRfOnBit }
  | .unconstrained => { f with rfOn := f.rfOn || Config.freeBool f.draws, draws := f.draws + 1 }

/-- `[0x17, 0x00]`: FE_REF switches the RF field off and sets TX_RFOFF at once (R65). Another FE has switched it off by now or has
not, a free bit, and says by TX_RFOFF when it is down (R182, R185; log entry 31). -/
def FeStore.reactRFOff (kind : FeKind) (f : FeStore) : FeStore :=
  match kind with
  | .reference => { f with rfOn := false, irqStatus := f.irqStatus ||| bitMask txRfOffBit }
  | .unconstrained => { f with rfOn := f.rfOn && Config.freeBool f.draws, draws := f.draws + 1 }

/-! ## The frame processed -/

/-- What FE holds after it has processed the write frame of a command (R62 to R65, R151 to R182). The block never sends a
SwitchMode frame (R112); FE_REF would refuse it, and what another FE would do is open (R66, U11). -/
def FeStore.react (p : Params) (kind : FeKind) (f : FeStore) : Instr → FeStore
  | .writeRegister addr v => f.reactWriteRegister p kind addr v
  | .writeRegisterOrMask addr m => f.reactOrMask p kind addr m
  | .writeRegisterAndMask addr m => f.reactAndMask p kind addr m
  | .readRegister addr => f.reactReadRegister addr
  | .writeEEPROM addr data => f.reactWriteEEPROM addr data
  | .readEEPROM _ _ => f
  | .sendData bytes validBits => f.reactSendData kind bytes validBits
  | .readData n => f.reactReadData kind n
  | .switchMode => FeStore.unknown f.draws f.tag
  | .loadRFConfig tx rx => f.reactLoadRFConfig kind tx rx
  | .rfOn => f.reactRFOn kind
  | .rfOff => f.reactRFOff kind

/-- What FE prepares to return in the read frame of a command; nothing where the command has none (R102). -/
def FeStore.answer (p : Params) (kind : FeKind) (f : FeStore) : Instr → List Byte
  | .writeRegister _ _ => []
  | .writeRegisterOrMask _ _ => []
  | .writeRegisterAndMask _ _ => []
  | .readRegister addr => f.answerReadRegister p kind addr
  | .writeEEPROM _ _ => []
  | .readEEPROM addr n => f.answerReadEEPROM addr n
  | .sendData _ _ => []
  | .readData n => f.answerReadData kind n
  | .switchMode => []
  | .loadRFConfig _ _ => []
  | .rfOn => []
  | .rfOff => []

/-- FE reacts to a command: what it holds, and what it will return. -/
def FrontEnd.react (p : Params) (i : Instr) (fe : FrontEnd) : FrontEnd :=
  { fe with
    store := fe.store.react p fe.kind i
    frameIn := []
    reply := fe.store.answer p fe.kind i }

/-- FE processes the write frame it has collected when `sel` falls (R49, R60): its own action first, then its reaction to the
command the frame decodes to. `readLen` is the size of the read frame the block sends next. A frame FE_REF refuses has no
effect (R66); one that decodes to nothing leaves another FE unknown. The block sends neither (R117). -/
def FrontEnd.processFrame (p : Params) (readLen : Nat) (fe : FrontEnd) : FrontEnd :=
  if (fe.refusesFrame p readLen).isSome then { fe with frameIn := [], reply := [] }
  else
    match decode ⟨fe.frameIn, readLen⟩ with
    | .ok i => fe.ownAction.react p i
    | .error _ => fe.cutFrame

end Sys2Proof.Machine
end

