-- ==== Sys2Proof/Machine/Bus.lean ====
section
/-! DEFINITION. The bus transport: the six steps of a frame and the two exchanges built of them (R130 to R143). -/

namespace Sys2Proof.Machine

/-- One sample of BUSY (R130 steps 1, 4, 6). -/
def sampleBusy (s : State) : Run Bool :=
  (pulse s).andThen fun _ s => .ok s.fe.busyLevel ((s.log (.busy s.fe.busyLevel)).onFe FrontEnd.nextBusy)

/-- `wait until busy = level bound T_BUSY else raise BusTimeout(cause)`, with so many samples left after this one: the wait
ends on the first sample that shows the level, even at the bound (R14, R137, R278). -/
def waitSamples (level : Bool) (cause : BusCause) : Nat → State → Run Unit
  | 0, s =>
      (sampleBusy s).andThen fun b s => if b = level then .ok () s else raiseBusTimeout cause s
  | left + 1, s =>
      (sampleBusy s).andThen fun b s =>
        if b = level then .ok () s
        else waitSamples level cause left (s.onBus fun r => { r with timer := r.timer + 1 })

/-- A wait for BUSY, in the phase that belongs to it (R130 steps 1, 4, 6). -/
def waitBusy (p : BtPhase) (level : Bool) (cause : BusCause) (s : State) : Run Unit :=
  waitSamples level cause s.params.tBusy (s.enter p)

/-- Hold for `T_SETTLE` (R135). -/
def settle (s : State) : Run Unit :=
  (pulse s).andThen fun _ s => .ok () ((s.onBus fun r => { r with timer := s.params.tSettle }).log .settle)

/-- Step 2: assert select, allow settle time; FE starts to collect a write frame (R130). `bt_dir` and `bt_idx` take the values of
the frame here: R133 says so of a read frame, and for a write frame it is the model's choice (log entry 28). -/
def assertSelect (dir : BtDir) (s : State) : Run Unit :=
  (pulse (s.enter .settleA)).andThen fun _ s =>
    let selected := (s.onBus fun r => { r with sel := true, dir := dir, idx := 0 }).log (.select true)
    settle (match dir with
      | .wr => selected.onFe FrontEnd.openFrame
      | .rd => selected)

/-- `BusByte(o)` in a write frame: FE takes the byte, the byte captured meanwhile is discarded (R21). -/
def sendByte (b : Byte) (s : State) : Run Unit :=
  (pulse s).andThen fun _ s =>
    .ok () (((s.onFe (FrontEnd.takeByte b)).onBus fun r => { r with idx := r.idx + 1 }).log (.sent b))

/-- Step 3 of a write frame: the bytes in index order (R130, R136). -/
def sendBytes : List Byte → State → Run Unit
  | [], s => .ok () s
  | b :: rest, s => (sendByte b s).andThen fun _ s => sendBytes rest s

/-- `rxf[i] <- BusByte(0xFF)` (R21, R130); FE_REF may refuse (R66). -/
def captureByte (s : State) : Run Unit :=
  (pulse s).andThen fun _ s =>
    let b := s.fe.replyByte
    .ok () ((((s.note s.fe.refusesRead).onFe FrontEnd.nextReply).onBus fun r =>
      { r with rxf := r.rxf ++ [b], idx := r.idx + 1 }).log (.captured 0xFF b))

/-- Step 3 of a read frame: so many bytes are captured (R130, R136). -/
def captureBytes : Nat → State → Run Unit
  | 0, s => .ok () s
  | n + 1, s => (captureByte s).andThen fun _ s => captureBytes n s

/-- Step 5: deassert select, allow settle time. FE processes the write frame when `sel` falls, and lowers BUSY when it has
(R49, R60, R130); FE_REF may refuse the frame (R66). -/
def releaseSelect (dir : BtDir) (readLen : Nat) (s : State) : Run Unit :=
  (pulse (s.enter .settleD)).andThen fun _ s =>
    let released := (s.onBus fun r => { r with sel := false }).log (.select false)
    settle ((match dir with
      | .wr => (released.note (s.fe.refusesFrame s.params readLen)).onFe (FrontEnd.processFrame s.params readLen)
      | .rd => released.onFe fun fe => { fe with reply := [] }).onFe FrontEnd.lowerBusy)

/-- Steps 4 to 6, the same for both directions: FE signals busy, select is released, FE is done (R130). -/
def finishFrame (dir : BtDir) (readLen : Nat) (s : State) : Run Unit :=
  (waitBusy .waitBusy true .waitBusyAssert (s.onFe FrontEnd.raiseBusy)).andThen fun _ s =>
  (releaseSelect dir readLen s).andThen fun _ s =>
  waitBusy .waitDone false .waitBusyRelease s

/-- Steps 2 to 6 of a write frame; `readLen` is the size of the read frame that follows, 0 for none (R130, R131). -/
def writeFrame (bytes : List Byte) (readLen : Nat) (s : State) : Run Unit :=
  (assertSelect .wr s).andThen fun _ s =>
  (sendBytes bytes (s.enter .xfer)).andThen fun _ s =>
  finishFrame .wr readLen s

/-- The direct command interface goes from its write frame to its read frame (R27). -/
def dcReadPhase (s : State) : State :=
  s.onDc fun d =>
    { d with phase := match d.phase with
        | .write => .read
        | other => other }

/-- Steps 2 to 6 of a read frame of `n` bytes; step 1 is not repeated (R132). -/
def readFrame (n : Nat) (s : State) : Run Unit :=
  (assertSelect .rd ((dcReadPhase s).onBus fun r => { r with rxf := [], rxfLen := n })).andThen fun _ s =>
  (captureBytes n (s.enter .xfer)).andThen fun _ s =>
  finishFrame .rd n s

/-- Step 1, with the frame to send in `txf` (R130, R131). -/
def startExchange (send : List Byte) (s : State) : Run Unit :=
  waitBusy .waitReady false .waitReady (s.onBus fun r => { r with txf := send, txfLen := send.length })

/-- `Exchange(send)`: one write frame with all six steps (R131). -/
def exchange (send : List Byte) (s : State) : Run Unit :=
  (startExchange send s).andThen fun _ s =>
  (writeFrame s.xcvr.bus.txf 0 s).andThen fun _ s =>
  .ok () (s.enter .idle)

/-- `Exchange(send, n)`: a write frame with all six steps, then a read frame with steps 2 to 6; the result is the `n` bytes
captured (R132). -/
def exchangeRead (send : List Byte) (n : Nat) (s : State) : Run (List Byte) :=
  (startExchange send s).andThen fun _ s =>
  (writeFrame s.xcvr.bus.txf n s).andThen fun _ s =>
  (readFrame n s).andThen fun _ s =>
  .ok s.xcvr.bus.rxf (s.enter .idle)

/-- The direct command interface starts a command: its kind, and its phase unless it is a part of SetRFOn or SetRFOff (R27). Inside
ProtocolTransact, where the spec moves `dc_phase` nowhere, it keeps `write` or `read` from one exchange through the operand check of
the next sub-operation up to here (DESIGN CHOICE, log entry 28). -/
def dcBegin (i : Instr) (s : State) : State :=
  s.onDc fun d =>
    { d with
      kind := match d.phase with
        | .poll | .clear => d.kind
        | _ => (directKind i).getD d.kind
      phase := match d.phase with
        | .poll => .poll
        | .clear => .clear
        | _ => .write }

/-- A direct command without a result: its operand check, then one exchange of its frame (R117, R131, R156). `dc_kind` is latched
after the check, so a rejected command leaves it as it was (DESIGN CHOICE, log entry 28). -/
def sendCommand (i : Instr) (s : State) : Run Unit :=
  (checkOperands i s).andThen fun _ s => exchange (encode i).frame (dcBegin i s)

/-- A direct command with a result: its operand check, then one exchange of its frame and its read frame (R102, R132,
R156). `dc_kind` as in `sendCommand` (log entry 28). -/
def queryCommand (i : Instr) (s : State) : Run (List Byte) :=
  (checkOperands i s).andThen fun _ s => exchangeRead (encode i).frame (encode i).readLen (dcBegin i s)

/-- ReadRegister as a part of an operation: the value of the four bytes captured (R154). -/
def readRegister (addr : Byte) (s : State) : Run Word := (queryCommand (.readRegister addr) s).map unle32

end Sys2Proof.Machine
end

