-- ==== Sys2Proof/Machine/Data.lean ====
section
/-! DEFINITION. The RF data commands (R170 to R176). -/

namespace Sys2Proof.Machine

/-- SendData (R170); it returns when FE has taken the frame (R176). -/
def execSendData (bytes : List Byte) (validBits : Nat) (s : State) : Host.Outcome State Fault Refusal :=
  performOperation
    (fun s => (sendCommand (.sendData bytes validBits) s).map fun _ => Completion.done) s

/-- ReadData (R174); it waits for no reception (R176). -/
def execReadData (length : Nat) (s : State) : Host.Outcome State Fault Refusal :=
  performOperation
    (fun s => (queryCommand (.readData length) s).map fun b => ⟨.ok, .bytes b⟩) s

end Sys2Proof.Machine
end

