-- ==== Sys2Proof/Machine/Eeprom.lean ====
section
/-! DEFINITION. The EEPROM commands (R160 to R163). -/

namespace Sys2Proof.Machine

/-- WriteEEPROM (R162). -/
def execWriteEEPROM (addr : Nat) (data : List Byte) (s : State) : Host.Outcome State Fault Refusal :=
  performOperation
    (fun s => (sendCommand (.writeEEPROM addr data) s).map fun _ => Completion.done) s

/-- ReadEEPROM (R161). -/
def execReadEEPROM (addr length : Nat) (s : State) : Host.Outcome State Fault Refusal :=
  performOperation
    (fun s => (queryCommand (.readEEPROM addr length) s).map fun b => ⟨.ok, .bytes b⟩) s

end Sys2Proof.Machine
end

