-- ==== Sys2Proof/Machine/Register.lean ====
section
/-! DEFINITION. The register commands (R150 to R156). -/

namespace Sys2Proof.Machine

/-- WriteRegister (R151). -/
def execWriteRegister (addr : Byte) (value : Word) (s : State) : Host.Outcome State Fault Refusal :=
  performOperation
    (fun s => (sendCommand (.writeRegister addr value) s).map fun _ => Completion.done) s

/-- WriteRegisterOrMask (R152). -/
def execWriteRegisterOrMask (addr : Byte) (mask : Word) (s : State) : Host.Outcome State Fault Refusal :=
  performOperation
    (fun s => (sendCommand (.writeRegisterOrMask addr mask) s).map fun _ => Completion.done) s

/-- WriteRegisterAndMask (R153). -/
def execWriteRegisterAndMask (addr : Byte) (mask : Word) (s : State) : Host.Outcome State Fault Refusal :=
  performOperation
    (fun s => (sendCommand (.writeRegisterAndMask addr mask) s).map fun _ => Completion.done) s

/-- ReadRegister (R154). -/
def execReadRegister (addr : Byte) (s : State) : Host.Outcome State Fault Refusal :=
  performOperation
    (fun s => (readRegister addr s).map fun v => ⟨.ok, .value v⟩) s

end Sys2Proof.Machine
end

