-- ==== Sys2Proof/Machine/Rf.lean ====
section
/-! DEFINITION. The RF control and system commands (R180 to R187). -/

namespace Sys2Proof.Machine

/-- LoadRFConfig: no local check, every pair of bytes is sent (R180). -/
def execLoadRFConfig (tx rx : Byte) (s : State) : Host.Outcome State Fault Refusal :=
  performOperation
    (fun s => (sendCommand (.loadRFConfig tx rx) s).map fun _ => Completion.done) s

/-- The flag poll of SetRFOn and SetRFOff with so many polls left: a full ReadRegister of IRQ_STATUS each, until the bit is
set; the count is tested only after a poll that did not show it (R181, R184, R278). -/
def pollFlag (bit : Nat) : Nat → State → Run Unit
  | 0, s => raiseBusTimeout .irqPoll s
  | left + 1, s =>
      (readRegister 0x02 s).andThen fun v s =>
        if v.getLsbD bit then .ok () s
        else pollFlag bit left (s.onDc fun d => { d with polls := d.polls + 1 })

/-- `dc_phase <- p`. -/
def dcEnter (p : DcPhase) (s : State) : State := s.onDc fun d => { d with phase := p }

/-- SetRFOn and SetRFOff: the frame, the poll for the flag, the clear of that flag and of no other (R181, R182). Where
`DEFINED_REGS` leaves out 0x02 or 0x03 it ends BadRegister at the poll or the clear (DESIGN CHOICE, log entry 33). -/
def switchField (i : Instr) (bit : Nat) (s : State) : Run Completion :=
  (sendCommand i s).andThen fun _ s =>
  (pollFlag bit s.params.nIrqPolls ((dcEnter .poll s).onDc fun d => { d with polls := 0 })).andThen fun _ s =>
  (sendCommand (.writeRegister 0x03 (bitMask bit)) (dcEnter .clear s)).map fun _ => Completion.done

/-- RFOn, the operation SetRFOn (R181). -/
def execRFOn (s : State) : Host.Outcome State Fault Refusal :=
  performOperation (switchField .rfOn txRfOnBit) s

/-- RFOff, the operation SetRFOff (R182). -/
def execRFOff (s : State) : Host.Outcome State Fault Refusal :=
  performOperation (switchField .rfOff txRfOffBit) s

/-- A request that the client port has no operation for is not accepted: it ends Unsupported, with no bus exchange and no change
of state beside the completion record (R263). -/
def endUnsupported (s : State) : State := s.complete ⟨.unsupported, .none⟩

/-- SwitchMode: the outcome is Unsupported (R186, R263). -/
def execSwitchMode (s : State) : Host.Outcome State Fault Refusal := .next (endUnsupported s)

end Sys2Proof.Machine
end

