-- ==== Sys2Proof/Machine/Dispatch.lean ====
section
/-! DEFINITION. One arm for each direct command. -/

namespace Sys2Proof.Machine

def exec (i : Instr) (s : State) : Host.Outcome State Fault Refusal :=
  match i with
  | .writeRegister addr value => Sys2Proof.Machine.execWriteRegister addr value s
  | .writeRegisterOrMask addr mask => Sys2Proof.Machine.execWriteRegisterOrMask addr mask s
  | .writeRegisterAndMask addr mask => Sys2Proof.Machine.execWriteRegisterAndMask addr mask s
  | .readRegister addr => Sys2Proof.Machine.execReadRegister addr s
  | .writeEEPROM addr data => Sys2Proof.Machine.execWriteEEPROM addr data s
  | .readEEPROM addr length => Sys2Proof.Machine.execReadEEPROM addr length s
  | .sendData bytes validBits => Sys2Proof.Machine.execSendData bytes validBits s
  | .readData length => Sys2Proof.Machine.execReadData length s
  | .switchMode => Sys2Proof.Machine.execSwitchMode s
  | .loadRFConfig tx rx => Sys2Proof.Machine.execLoadRFConfig tx rx s
  | .rfOn => Sys2Proof.Machine.execRFOn s
  | .rfOff => Sys2Proof.Machine.execRFOff s

end Sys2Proof.Machine
end

