-- ==== Sys2Proof/Machine/Irq.lean ====
section
/-! DEFINITION. The four operations of the IRQ and status decoder (R190 to R196). -/

namespace Sys2Proof.Machine

/-- GetIrqStatus as a part of an operation: one ReadRegister of 0x02, latched in `irq_snap` (R190). -/
def getIrqStatus (s : State) : Run Word :=
  (readRegister 0x02 s).andThen fun v s => .ok v { s with xcvr := { s.xcvr with irqSnap := v } }

/-- ClearIrqStatus as a part of an operation: one WriteRegister of 0x03 (R192). -/
def clearIrqStatus (mask : Word) (s : State) : Run Unit := sendCommand (.writeRegister 0x03 mask) s

/-- GetTransceiveState as a part of an operation: one ReadRegister of 0x1D and its state field; nothing is stored (R193). -/
def getTransceiveState (s : State) : Run (BitVec 3) :=
  (readRegister 0x1D s).andThen fun v s => .ok (tsField s.params.tsShift v) s

/-- The operation GetIrqStatus (R190). -/
def opGetIrqStatus (s : State) : Host.Outcome State Fault Refusal :=
  performOperation (fun s => (getIrqStatus s).map fun v => ⟨.ok, .irqStatus v (decodeIrq v)⟩) s

/-- The operation ClearIrqStatus (R192). -/
def opClearIrqStatus (mask : Word) (s : State) : Host.Outcome State Fault Refusal :=
  performOperation (fun s => (clearIrqStatus mask s).map fun _ => Completion.done) s

/-- The operation GetTransceiveState (R193). -/
def opGetTransceiveState (s : State) : Host.Outcome State Fault Refusal :=
  performOperation (fun s => (getTransceiveState s).map fun n => ⟨.ok, .transceiveState (transceiveState n)⟩) s

/-- IsIrqAsserted: the level of the line at that moment, with no frame and no wait (R195). -/
def sampleIrq (s : State) : Run Completion :=
  .ok ⟨.ok, .line s.fe.irqLevel⟩ ((s.log (.irq s.fe.irqLevel)).onFe FrontEnd.nextIrq)

/-- The operation IsIrqAsserted: Unsupported when the IRQ line is not fitted (R195). -/
def opIsIrqAsserted (s : State) : Host.Outcome State Fault Refusal :=
  if s.params.irqFitted then performOperation sampleIrq s else .next (endUnsupported s)

end Sys2Proof.Machine
end

