-- ==== Sys2Proof/Machine/Engine.lean ====
section
/-! DEFINITION. The generic protocol framing engine: ProtocolTransact and its stages (R200 to R223). -/

namespace Sys2Proof.Machine

/-- The parameter check of the engine, that of SendData, made before the first exchange (R201). The operands are latched
(R29). -/
def engineCheck (p : ProtocolRequest) (s : State) : Run Unit :=
  checkOperands (.sendData p.req p.validBits) (s.onPe fun e => { e with request := p })

/-- One CRC control: On sets the enable bit, Off clears it, Keep sends no frame (R203). -/
def crcControl (addr : Byte) (c : CrcControl) (s : State) : Run Unit :=
  match c with
  | .on => sendCommand (.writeRegisterOrMask addr s.params.crcEnMask) s
  | .off => sendCommand (.writeRegisterAndMask addr (~~~s.params.crcEnMask)) s
  | .keep => .ok () s

/-- Stage CrcConfigured: the transmit control, then the receive control (R203). -/
def crcStage (p : ProtocolRequest) (s : State) : Run Unit :=
  (crcControl 0x19 p.crcTx s).andThen fun _ s =>
  (crcControl 0x12 p.crcRx s).andThen fun _ s =>
  .ok () (s.stage .crcConfigured)

/-- The idle command, then the start-transceive command (R205). -/
def startTransceive (s : State) : Run Unit :=
  (sendCommand (.writeRegisterAndMask 0x00 (~~~s.params.cmdMask)) s).andThen fun _ s =>
  sendCommand (.writeRegisterOrMask 0x00 s.params.cmdTransceive) s

/-- The transmit-ready check: one read, and the state read where it is not WaitTransmit (R206). -/
def readyCheck (s : State) : Run (Option (BitVec 3)) :=
  if s.params.rigorCheckWaitTransmit then
    (getTransceiveState s).map fun n => if n = 1 then none else some n
  else .ok none s

/-- The transceive cycle of stage Transmitting, for a request that asks for one; the value is a state that is not
WaitTransmit (R205, R206). -/
def transceiveStage (p : ProtocolRequest) (s : State) : Run (Option (BitVec 3)) :=
  if p.transceiveCycle then (startTransceive s).andThen fun _ s => readyCheck s else .ok none s

/-- The wait for the start-of-frame flag with so many polls left; the value says whether it was seen. The count is tested only
after a poll that did not show it (R208, R278). -/
def awaitStart : Nat → State → Run Bool
  | 0, s => .ok false s
  | left + 1, s =>
      (getIrqStatus s).andThen fun v s =>
        if v.getLsbD rxSofDetBit then .ok true s
        else awaitStart left (s.onPe fun e => { e with polls := e.polls + 1 })

/-- The response length, the low nine bits of RX_STATUS (R210). -/
def readLength (s : State) : Run Nat :=
  (readRegister 0x13 s).andThen fun w s =>
    .ok (lengthField w).toNat (s.onPe fun e => { e with len := lengthField w })

/-- The hand-off to SendData and the wait for a response, down to what the response length leads to (R207 to R212). -/
def transmitAndAwait (p : ProtocolRequest) (s : State) : Run (OpOutcome ⊕ Nat) :=
  (sendCommand (.sendData p.req p.validBits) s).andThen fun _ s =>
  (awaitStart s.params.nRespPolls
    ((s.stage .awaitingResponse).onPe fun e => { e with polls := 0 })).andThen fun seen s =>
  if seen then (readLength s).andThen fun n s => .ok (lengthVerdict n) s else .ok (.inl .noCard) s

/-- ProtocolTransact up to the fetch: an outcome to finish with, or the number of bytes to fetch (R200). -/
def engineFront (p : ProtocolRequest) (s : State) : Run (OpOutcome ⊕ Nat) :=
  (engineCheck p s).andThen fun _ s =>
  (crcStage p s).andThen fun _ s =>
  (transceiveStage p (s.stage .transmitting)).andThen fun bad s =>
  match bad with
  | some n => .ok (.inl (.preconditionViolation n)) s
  | none => transmitAndAwait p s

/-- `finish(o)`: the flags the engine consumed are cleared before the completion record is delivered (R216). A BusTimeout of
the clear replaces the outcome (R277). -/
def finish (c : Completion) (s : State) : Run Completion :=
  (clearIrqStatus engineFlags ((s.stage .classified).onPe fun e => { e with outcome := c.outcome })).andThen fun _ s =>
  .ok c (s.stage .idle)

/-- Record what the classification found (R29, R215). -/
def recordVerdict (o : OpOutcome) (ext : Option Bool) (s : State) : State :=
  s.onPe fun e =>
    { e with
      err := match o with
        | .tagError code => code
        | _ => e.err
      ext := ext.getD e.ext }

/-- The fetch and the classification (R213, R215, R217): the response is delivered whole with Ok and with TagError. -/
def engineBack (p : ProtocolRequest) (n : Nat) (s : State) : Run Completion :=
  (queryCommand (.readData n) s).andThen fun resp s =>
  let verdict := if p.classify then classifyResponse resp else (.ok, none)
  finish ⟨verdict.1, .response resp verdict.2⟩
    (recordVerdict verdict.1 verdict.2
      ((s.onPe fun e => { e with resp := resp }).stage .responseFetched))

/-- An outcome raised inside the engine takes it back to `PE_IDLE` from whatever stage it is in (R202, R219). -/
def leaveStage (s : State) : State := if s.xcvr.pe.stage = .idle then s else s.stage .idle

/-- The end of the engine's operation (R218, R219). -/
def finishEngine (r : Run Completion) : State :=
  match r with
  | .ok c s => finishRun (.ok c s)
  | .stop (.outcome o) s => finishRun (.stop (.outcome o) (leaveStage s))
  | .stop .reset s => finishRun (.stop .reset s)

/-- ProtocolTransact, from the parameter check to the delivery of the outcome (R200). Where `DEFINED_REGS` leaves out a register it
uses it ends BadRegister when it reaches it, with no flag clear (DESIGN CHOICE, log entry 33). -/
def engine (p : ProtocolRequest) (s : State) : Run Completion :=
  (engineFront p s).andThen fun v s =>
  match v with
  | .inl o => finish ⟨o, .none⟩ s
  | .inr n => engineBack p n s

/-- The operation ProtocolTransact (R200). Its ReadData is the one frame of it that FE_REF can refuse: "refuses if n >
len(rxbuf)" (R64). -/
def opProtocolTransact (p : ProtocolRequest) (s : State) : Host.Outcome State Fault Refusal :=
  answer s.fe.kind (finishEngine (engine p s.accept))

end Sys2Proof.Machine
end

