-- ==== Sys2Proof/Machine/Step.lean ====
section
/-! DEFINITION. One step of the machine: the block, when idle, accepts the operation record at the head of the client port and
runs it to its completion (R23). There is no program counter (R24): the order of operations is CLIENT's. -/

namespace Sys2Proof.Machine

/-- Run one operation record. A record that decodes to no listed kind ends Unsupported (R263), as does SwitchMode in whatever form
(R186); one that has another listed opcode and is no encoding of it is refused, as a frame decoder refuses it (R117). -/
def runRequest (r : Request) (s : State) : Host.Outcome State Fault Refusal :=
  match r with
  | .direct i => exec i s
  | .encoded e =>
      match decode e with
      | .ok i => exec i s
      | .error (.unlistedOpcode _) => .next (endUnsupported s)
      | .error why => .refused (.malformedRecord why)
  | .getIrqStatus => opGetIrqStatus s
  | .clearIrqStatus mask => opClearIrqStatus mask s
  | .getTransceiveState => opGetTransceiveState s
  | .isIrqAsserted => opIsIrqAsserted s
  | .protocolTransact p => opProtocolTransact p s
  | .unlisted _ => .next (endUnsupported s)

/-- One step. -/
def step (s : State) : Host.Outcome State Fault Refusal :=
  if s.xcvr.xcBusy then .fault .operationInProgress
  else
    match s.requests with
    | [] => .next s.idleStep
    | r :: rest => runRequest r { s with requests := rest }

/-- Put the instruction of a table word at the head of the client port, as its encoding. -/
def State.withFetchWord (s : State) (nbits w : Nat) : State :=
  { s with requests := .encoded (tableEncoding nbits w) :: s.requests }

end Sys2Proof.Machine
end

