-- ==== Sys2Proof/Machine/Client.lean ====
section
/-! DEFINITION. The card-family sequences of CLIENT (R230 to R250): programs outside the block that drive it by ProtocolTransact
operations, one after another, as the only programs the source describes. -/

namespace Sys2Proof.Machine

/-- How a sequence of CLIENT ends. -/
inductive Ended (α : Type) where
  /-- It ran to its end. -/
  | ok (a : α)
  /-- An operation of the block ended with another outcome than Ok, which is returned unchanged (R250, file 47 section 1). -/
  | operation (o : OpOutcome)
  /-- `ProtocolViolation` (R268). -/
  | protocolViolation
  /-- A parameter error of the family module, before any exchange (R248). -/
  | badParameter
  /-- The block was reset: there is no completion record (R290). -/
  | abandoned
deriving DecidableEq, Repr

/-- What a sequence comes to: how it ends and the machine it leaves, or a stop of the machine. -/
abbrev Sequence (α : Type) := Host.Outcome (Ended α × State) Fault Refusal

/-- One tag exchange: a ProtocolTransact whose response bytes the rest of the sequence takes (R230). One that a reset event abandons
ends the sequence (DESIGN CHOICE, log entry 21). -/
def tagExchange {α : Type} (p : ProtocolRequest) (rest : List Byte → State → Sequence α) (s : State) : Sequence α :=
  match opProtocolTransact p s with
  | .fault r => .fault r
  | .refused r => .refused r
  | .next t =>
      match t.completion with
      | none => .next (.abandoned, t)
      | some ⟨.ok, .response resp _⟩ => rest resp t
      | some c => .next (.operation c.outcome, t)

/-- One exchange of the Type-A activation: raw responses, and any length but the expected one is a ProtocolViolation (R217,
D32). -/
def typeAExchange {α : Type} (req : List Byte) (validBits : Nat) (crc : CrcControl) (expected : Nat)
    (rest : List Byte → State → Sequence α) (s : State) : Sequence α :=
  tagExchange ⟨req, validBits, crc, crc, true, false⟩
    (fun resp t => if resp.length = expected then rest resp t else .next (.protocolViolation, t)) s

/-- `REQA` and `WUPA` (R231). -/
def reqA : Byte := 0x26
def wupA : Byte := 0x52

/-- The cascade marker, the first byte of a level-1 answer whose tag has a longer UID (R235). -/
def cascadeMarker : Byte := 0x88

/-- The cascade bit of a SAK byte (R234). -/
def cascadeBit (sak : Byte) : Bool := sak.getLsbD 2

/-- One cascade level: the anti-collision frame, then the SELECT frame with the five bytes just read; the rest takes those
bytes and the SAK (R232, R233, R235). -/
def cascadeLevel {α : Type} (select : Byte) (crc : CrcControl) (rest : List Byte → Byte → State → Sequence α)
    (s : State) : Sequence α :=
  typeAExchange [select, 0x20] 0 crc 5
    (fun uid t =>
      typeAExchange (select :: 0x70 :: uid) 0 .on 1 (fun sak u => rest uid (sak.headD 0) u) t) s

/-- What the activation returns: the ATQA bytes and the UID (R231, R234, R235). -/
structure TypeATag where
  atqa : List Byte
  uid : List Byte
deriving DecidableEq, Repr

/-- ISO14443 Type-A activation with the wake-up byte REQA or WUPA (R231 to R236). Any other byte is sent as it is, unchecked
(DESIGN CHOICE, log entry 21). -/
def activateTypeA (wake : Byte) (s : State) : Sequence TypeATag :=
  typeAExchange [wake] 7 .off 2
    (fun atqa t =>
      cascadeLevel 0x93 .keep
        (fun a sak1 u =>
          if !cascadeBit sak1 then .next (.ok ⟨atqa, a.take 4⟩, u)
          else if a.headD 0 ≠ cascadeMarker then .next (.protocolViolation, u)
          else
            cascadeLevel 0x95 .off
              (fun b sak2 v =>
                if cascadeBit sak2 then .next (.protocolViolation, v)
                else .next (.ok ⟨atqa, (a.take 4).drop 1 ++ b.take 4⟩, v)) u) t) s

/-- One exchange of the ISO15693 family: classified responses, CRC controls Keep (D14). -/
def iso15693Exchange {α : Type} (req : List Byte) (rest : List Byte → State → Sequence α) (s : State) : Sequence α :=
  tagExchange ⟨req, 0, .keep, .keep, true, true⟩ rest s

/-- What an inventory returns; the UID is in wire order, least significant byte first (R245). -/
structure InventoryAnswer where
  flags : Byte
  dsfid : Byte
  uid : List Byte
deriving DecidableEq, Repr

/-- A UID as displayed: displayed byte i is response byte 9 - i (R246). -/
def displayedUid (wireUid : List Byte) : List Byte := wireUid.reverse

/-- Single-slot inventory (R245); another length than 10 is a ProtocolViolation (DESIGN CHOICE, log entry 21). -/
def inventory (s : State) : Sequence InventoryAnswer :=
  iso15693Exchange [0x26, 0x01, 0x00]
    (fun r t =>
      if r.length = 10 then .next (.ok ⟨r.headD 0, (r.drop 1).headD 0, r.drop 2⟩, t)
      else .next (.protocolViolation, t)) s

/-- Read single block, addressed by the full UID in wire order: the bytes of the block (R247). A UID that is not 8 bytes is sent
as it is (DESIGN CHOICE, log entry 21; the same in the two requests below). -/
def readSingleBlock (uid : List Byte) (block : Byte) (s : State) : Sequence (List Byte) :=
  iso15693Exchange (0x22 :: 0x20 :: uid ++ [block]) (fun r t => .next (.ok (r.drop 1), t)) s

/-- Write single block: data of another size than the tag's block is rejected before any exchange (R248). The bytes of an Ok
response after its flags byte, which R248 does not allow for, are ignored (DESIGN CHOICE, log entry 21). -/
def writeSingleBlock (blockSize : Nat) (uid : List Byte) (block : Byte) (data : List Byte) (s : State) : Sequence Unit :=
  if data.length = blockSize then
    iso15693Exchange (0x22 :: 0x21 :: uid ++ block :: data) (fun _ t => .next (.ok (), t)) s
  else .next (.badParameter, s)

/-- The optional fields of a Get-System-Info response (R249). -/
structure SystemInfo where
  dsfid : Option Byte
  afi : Option Byte
  blockSize : Option Nat
  blockCount : Option Nat
  icRef : Option Byte
deriving DecidableEq, Repr

/-- One optional byte of the walk: consumed only if its flag is set. -/
def takeField (present : Bool) (r : List Byte) : Option (Option Byte × List Byte) :=
  if present then
    match r with
    | b :: rest => some (some b, rest)
    | [] => none
  else some (none, r)

/-- The memory-size field: block size, then block count, in the document's order (R249, G7). -/
def takeMemorySize (present : Bool) (r : List Byte) : Option ((Option Nat × Option Nat) × List Byte) :=
  if present then
    match r with
    | size :: count :: rest => some ((some (size.toNat % 32 + 1), some (count.toNat + 1)), rest)
    | _ => none
  else some ((none, none), r)

/-- The walk over the information flags: DSFID, AFI, memory size, IC reference, in that order (R249); none where the response
ends before a field its flags promise, and bytes left over are dropped (both DESIGN CHOICE, log entry 21). -/
def parseSystemInfo (r : List Byte) : Option SystemInfo :=
  if r.length < 10 then none
  else
    let info := (r.drop 1).headD 0
    (takeField (info.getLsbD 0) (r.drop 10)).bind fun d =>
    (takeField (info.getLsbD 1) d.2).bind fun a =>
    (takeMemorySize (info.getLsbD 2) a.2).bind fun m =>
    (takeField (info.getLsbD 3) m.2).map fun i => ⟨d.1, a.1, m.1.1, m.1.2, i.1⟩

/-- Get-System-Info (R249). -/
def getSystemInfo (uid : List Byte) (s : State) : Sequence SystemInfo :=
  iso15693Exchange (0x22 :: 0x2B :: uid)
    (fun r t =>
      match parseSystemInfo r with
      | some info => .next (.ok info, t)
      | none => .next (.protocolViolation, t)) s

end Sys2Proof.Machine
end

