-- ==== Sys2Proof/Safety.lean ====
section
/-! DEFINITION. What claims are stated in: which bus events may follow which (R130, R133, R134, R202), what every step keeps,
and when the front-end answers. -/

namespace Sys2Proof.Machine

/-! ## The record of events, the newest first -/

/-- `bt_phase` as the events leave it. -/
def phaseNow : List Event → BtPhase
  | [] => .idle
  | .phase p :: _ => p
  | .reset :: _ => .idle
  | _ :: past => phaseNow past

/-- `pe_stage` as the events leave it. -/
def stageNow : List Event → PeStage
  | [] => .idle
  | .stage p :: _ => p
  | .reset :: _ => .idle
  | _ :: past => stageNow past

/-- `sel` as the events leave it. -/
def selectedNow : List Event → Bool
  | [] => false
  | .select on :: _ => on
  | .reset :: _ => false
  | _ :: past => selectedNow past

/-- BUSY was sampled 0, and no byte has moved and no select edge has come since. -/
def readyNow : List Event → Bool
  | [] => false
  | .busy level :: _ => !level
  | .select _ :: _ => false
  | .sent _ :: _ => false
  | .captured _ _ :: _ => false
  | .reset :: _ => false
  | .phase _ :: past => readyNow past
  | .stage _ :: past => readyNow past
  | .settle :: past => readyNow past
  | .irq _ :: past => readyNow past

/-- The transitions of `bt_phase` (R133); "no other transition exists". -/
def BtPhase.mayFollow : BtPhase → BtPhase → Bool
  | .idle, .waitReady => true
  | .waitReady, .settleA => true
  | .waitReady, .idle => true
  | .settleA, .xfer => true
  | .xfer, .waitBusy => true
  | .waitBusy, .settleD => true
  | .waitBusy, .idle => true
  | .settleD, .waitDone => true
  | .waitDone, .idle => true
  | .waitDone, .settleA => true
  | _, _ => false

/-- The transitions of `pe_stage` (R202), with those to `PE_IDLE` on BusTimeout. -/
def PeStage.mayFollow : PeStage → PeStage → Bool
  | .idle, .crcConfigured => true
  | .crcConfigured, .transmitting => true
  | .transmitting, .awaitingResponse => true
  | .transmitting, .classified => true
  | .awaitingResponse, .responseFetched => true
  | .awaitingResponse, .classified => true
  | .responseFetched, .classified => true
  | .idle, .idle => false
  | _, .idle => true
  | _, _ => false

/-- Whether an event may come after the events so far: BUSY is sampled in the three wait phases only, select is asserted only
when BUSY was just sampled 0 (R134, R300), bytes move only in the transfer phase with select asserted (R136), the
sequencers move only as R133 and R202 say. -/
def eventLegal (e : Event) (past : List Event) : Bool :=
  match e with
  | .phase p => (phaseNow past).mayFollow p
  | .stage p => (stageNow past).mayFollow p
  | .busy _ => phaseNow past = .waitReady || phaseNow past = .waitBusy || phaseNow past = .waitDone
  | .select true => phaseNow past = .settleA && !selectedNow past && readyNow past
  | .select false => selectedNow past
  | .settle => phaseNow past = .settleA || phaseNow past = .settleD
  | .sent _ => phaseNow past = .xfer && selectedNow past
  | .captured out _ => phaseNow past = .xfer && selectedNow past && out = 0xFF
  | .irq _ => phaseNow past = .idle
  | .reset => true

/-- Every event of a record was legal when it came. -/
def traceLegal : List Event → Bool
  | [] => true
  | e :: past => eventLegal e past && traceLegal past

/-- The bytes of the write frames of a record, in the order they were sent. -/
def bytesSent (t : List Event) : List Byte :=
  (t.reverse).filterMap fun e => match e with
    | .sent b => some b
    | _ => none

/-- The bytes of the read frames of a record, in the order they were captured. -/
def bytesCaptured (t : List Event) : List Byte :=
  (t.reverse).filterMap fun e => match e with
    | .captured _ b => some b
    | _ => none

/-- How many frames a record opens: the assertions of select (R18). -/
def framesOpened (t : List Event) : Nat := t.countP fun e => e = .select true

/-! ## What every step keeps -/

/-- The block's state between two operations (R279). -/
def Xcvr.isIdle (x : Xcvr) : Bool :=
  !x.bus.sel && x.bus.phase = .idle && x.dc.phase = .idle && x.pe.stage = .idle && !x.xcBusy

/-- The record of events agrees with the block's registers, and every event of it was legal. -/
structure BusOk (s : State) : Prop where
  legal : traceLegal s.trace = true
  sel : s.xcvr.bus.sel = selectedNow s.trace
  phase : s.xcvr.bus.phase = phaseNow s.trace
  stage : s.xcvr.pe.stage = stageNow s.trace

/-- The buffers of the block are no longer than the frames they hold (R26, R29). -/
structure BuffersOk (x : Xcvr) : Prop where
  txf : x.bus.txf.length ≤ 262
  rxf : x.bus.rxf.length ≤ Config.maxRead
  peResp : x.pe.resp.length ≤ Config.maxRead

/-- The stores and buffers of the front-end keep their form (R43, R44, R45). -/
structure StoreOk (f : FeStore) : Prop where
  eeprom : Memory.wf f.eeprom = true
  eepromBound : ∀ c ∈ f.eeprom, c.1 < Config.eepromLimit
  others : Store.rising f.others = true
  txbuf : f.txbuf.length ≤ Config.maxSend
  rxbuf : f.rxbuf.length ≤ Config.maxRead

/-- What every step of the machine keeps. -/
structure State.Inv (s : State) : Prop where
  idle : s.xcvr.isIdle = true
  rst : s.xcvr.rst = false
  params : s.params.wf = true
  buffers : BuffersOk s.xcvr
  store : StoreOk s.fe.store
  bus : BusOk s

/-! ## When the front-end answers -/

/-- The front-end adds no line level, no byte and no action of its own: FE_REF, or an unconstrained FE with no input pending,
which then keeps the handshake of R140 and answers as the command rules say. -/
def FrontEnd.plain (fe : FrontEnd) : Bool :=
  fe.kind = .reference || (fe.inputs.busy.isEmpty && fe.inputs.byte.isEmpty && fe.inputs.acts.isEmpty)

/-- A front-end that is also ready: BUSY is 0. -/
def FrontEnd.cooperative (fe : FrontEnd) : Bool := !fe.busy && fe.plain

/-- The front-end answers, and no reset event is on its way. -/
structure State.Quiet (s : State) : Prop where
  fe : s.fe.cooperative = true
  noReset : s.resetIn = none

/-- The front-end adds no line level and no byte of its own, BUSY is 0 and no reset event is on its way; its own actions are those
of its input. -/
structure State.Calm (s : State) : Prop where
  busy : s.fe.busy = false
  lines : s.fe.kind = .reference ∨ (s.fe.inputs.busy = [] ∧ s.fe.inputs.byte = [])
  noReset : s.resetIn = none

/-- An own action of FE that sets these flags and does nothing else (R89). -/
def FeAct.flags (w : Word) : FeAct := ⟨w, none, none, none, none, none, none⟩

/-- An own action of FE that moves the transceive state to this and does nothing else (R83, R89). -/
def FeAct.state (n : BitVec 3) : FeAct := ⟨0, none, some n, none, none, none, none⟩

/-- An own action of FE that does nothing (R89). -/
def FeAct.nothing : FeAct := FeAct.flags 0

/-! ## What claims say of the state before and the state after -/

/-- `RegRead(a)` (R14): what the front-end returns for a register now. What a read of IRQ_CLEAR returns is a free value, a
new one after each use (R34, U5). -/
def State.reg (s : State) (a : Byte) : Word := s.fe.store.regRead s.params s.fe.kind a

/-- The byte of the EEPROM at an address now (R43). -/
def State.eepromAt (s : State) (a : Nat) : Byte := s.fe.store.eepromByte a

/-- The bus traffic between two states: so many frames, these bytes sent in write frames, these captured in read frames. -/
def Traffic (s t : State) (frames : Nat) (out inp : List Byte) : Prop :=
  ∃ new, t.trace = new ++ s.trace ∧ framesOpened new = frames ∧ bytesSent new = out ∧ bytesCaptured new = inp

/-- The block is idle again, with `RST` inactive as it was (R22, R279), the parameters are the same (R10), and no input was used
up. -/
structure BlockAround (s t : State) : Prop where
  idle : t.xcvr.isIdle = true
  rst : t.xcvr.rst = s.xcvr.rst
  params : t.params = s.params
  resetIn : t.resetIn = s.resetIn
  feKind : t.fe.kind = s.fe.kind
  feIrq : t.fe.irq = s.fe.irq
  feInputs : t.fe.inputs = s.fe.inputs

/-- The latch of the IRQ/status decoder (R28) and the registers of the protocol engine (R29) are as before, with the engine
idle. -/
structure LatchesKept (s t : State) : Prop where
  irqSnap : t.xcvr.irqSnap = s.xcvr.irqSnap
  pe : t.xcvr.pe = { s.xcvr.pe with stage := .idle }

/-- Everything a direct command does beside its effect in the front-end: its outcome is Ok, it delivers its result, its frames
went over the bus, and the rest of the block is as before. -/
structure DirectDone (s t : State) (result : Result) (frames : Nat) (out inp : List Byte) : Prop where
  completion : t.completion = some ⟨.ok, result⟩
  traffic : Traffic s t frames out inp
  around : BlockAround s t
  latches : LatchesKept s t
  requests : t.requests = s.requests

/-- An operation that ended before any exchange: the outcome is delivered, nothing went over the bus, the front-end is untouched
and so is the rest of the block (R262, R263). -/
structure Rejected (s t : State) (o : OpOutcome) : Prop where
  completion : t.completion = some ⟨o, .none⟩
  trace : t.trace = s.trace
  fe : t.fe = s.fe
  around : BlockAround s t
  latches : LatchesKept s t
  requests : t.requests = s.requests

/-- The transmit buffer with its valid-bit count, and the receive buffer, are as before (R44, R45). -/
structure BuffersKept (s t : State) : Prop where
  txbuf : t.fe.store.txbuf = s.fe.store.txbuf
  txValidBits : t.fe.store.txValidBits = s.fe.store.txValidBits
  rxbuf : t.fe.store.rxbuf = s.fe.store.rxbuf

/-- The RF field, the two profiles and the tag are as before (R47, R50). -/
structure RadioKept (s t : State) : Prop where
  rfOn : t.fe.store.rfOn = s.fe.store.rfOn
  cfgTx : t.fe.store.cfgTx = s.fe.store.cfgTx
  cfgRx : t.fe.store.cfgRx = s.fe.store.cfgRx
  tag : t.fe.store.tag = s.fe.store.tag

/-- Every byte of the EEPROM is as before (R43). -/
def EepromKept (s t : State) : Prop := ∀ a, t.eepromAt a = s.eepromAt a

/-- Every register but those listed is as before, and the transceive state too unless RF_STATUS is listed. -/
def RegistersKeptBut (l : List Byte) (s t : State) : Prop :=
  (∀ a, a ∉ l → t.reg a = s.reg a) ∧ (0x1D ∉ l → t.fe.store.ts = s.fe.store.ts)

/-- All the front-end holds beside its registers is as before. -/
structure StoreKept (s t : State) : Prop where
  buffers : BuffersKept s t
  radio : RadioKept s t
  eeprom : EepromKept s t

/-- A write that leaves this value in a register changes the command field of SYSTEM_CONFIG (R83). -/
abbrev State.changesCommand (s : State) (addr : Byte) (new : Word) : Prop :=
  addr = 0x00 ∧ new &&& s.params.cmdMask ≠ s.reg 0x00 &&& s.params.cmdMask

/-- What a write that leaves this value in a plain storage register changes: the register, and where it changes the command
field of SYSTEM_CONFIG the transceive state, which is then open (R83, log entry 34). -/
structure RegisterWritten (s t : State) (addr : Byte) (new : Word) : Prop where
  value : t.reg addr = new
  others : RegistersKeptBut [addr, 0x1D] s t
  rfStatusRest : t.fe.store.rfStatusRest = s.fe.store.rfStatusRest
  rfStatus : ¬ s.changesCommand addr new → t.reg 0x1D = s.reg 0x1D ∧ t.fe.store.ts = s.fe.store.ts
  store : StoreKept s t

/-- Two ways of writing this value to a register of `s` leave the same: the whole front-end, but that where a front-end that is not
FE_REF has the command field of SYSTEM_CONFIG changed its transceive state is open after each (R83, log entry 34), and then
everything else of it. -/
structure WrittenAlike (s one two : State) (addr : Byte) (new : Word) : Prop where
  completion : two.completion = one.completion
  registers : RegistersKeptBut [0x1D] one two
  rfStatusRest : two.fe.store.rfStatusRest = one.fe.store.rfStatusRest
  store : StoreKept one two
  around : BlockAround one two
  busy : two.fe.busy = one.fe.busy
  whole : s.fe.kind = .reference ∨ ¬ s.changesCommand addr new → two.fe = one.fe

/-- What FE_REF makes of a frame that leaves this value in SYSTEM_CONFIG (R63): the command field moves the transceive state and,
for the idle command, sets IDLE. -/
structure SystemConfigLeft (s t : State) (new : Word) : Prop where
  value : t.reg 0x00 = new
  idle : new &&& s.params.cmdMask = s.params.cmdIdle → t.fe.store.ts = 0 ∧ t.reg 0x02 = s.reg 0x02 ||| 0x00000004
  transceive : new &&& s.params.cmdMask = s.params.cmdTransceive → s.params.cmdTransceive ≠ s.params.cmdIdle →
    t.fe.store.ts = 1 ∧ t.reg 0x02 = s.reg 0x02
  other : new &&& s.params.cmdMask ≠ s.params.cmdIdle → new &&& s.params.cmdMask ≠ s.params.cmdTransceive →
    t.fe.store.ts = s.fe.store.ts ∧ t.reg 0x02 = s.reg 0x02
  rfStatus : t.reg 0x1D = stateField s.params.tsShift t.fe.store.ts
  rest : ∀ a, a ∉ [0x00, 0x02, 0x1D] → t.reg a = s.reg a

/-- What a request asks of the engine's parameter check (R201). -/
def ProtocolRequest.accepted (p : ProtocolRequest) : Bool :=
  decide (1 ≤ p.req.length) && decide (p.req.length ≤ Config.maxSend) && decide (p.validBits ≤ 7)

/-- CRC_TX_CONFIG or CRC_RX_CONFIG after a CRC control (R203). -/
def crcLeft (mask : Word) (c : CrcControl) (v : Word) : Word :=
  match c with
  | .on => v ||| mask
  | .off => v &&& ~~~mask
  | .keep => v

/-- The number of frames ProtocolTransact sends before SendData with FE_REF (R200, R221): one for each CRC control that is not
Keep, two for the transceive cycle, two for the transmit-ready check. -/
def framesBeforeSend (s : State) (p : ProtocolRequest) : Nat :=
  (if p.crcTx = .keep then 0 else 1) + (if p.crcRx = .keep then 0 else 1) +
    (if p.transceiveCycle then (if s.params.rigorCheckWaitTransmit then 4 else 2) else 0)

/-- The write frame of a CRC control (R203): none for Keep. -/
def crcFrame (addr : Byte) (mask : Word) (c : CrcControl) : List Byte :=
  match c with
  | .on => 0x01 :: addr :: le32 mask
  | .off => 0x02 :: addr :: le32 (~~~mask)
  | .keep => []

/-- The bytes ProtocolTransact sends before SendData, in order (R200): the transmit control, the receive control, and for a
transceive cycle the idle command, the start command and the read of RF_STATUS for the transmit-ready check. -/
def bytesBeforeSend (s : State) (p : ProtocolRequest) : List Byte :=
  crcFrame 0x19 s.params.crcEnMask p.crcTx ++ crcFrame 0x12 s.params.crcEnMask p.crcRx ++
    (if p.transceiveCycle then
      0x02 :: 0x00 :: le32 (~~~s.params.cmdMask) ++ 0x01 :: 0x00 :: le32 s.params.cmdTransceive ++
        (if s.params.rigorCheckWaitTransmit then [0x04, 0x1D] else [])
    else [])

/-- The bytes ProtocolTransact captures before SendData: RF_STATUS, where the transmit-ready check reads it (R206). -/
def readBeforeSend (s : State) (p : ProtocolRequest) (rfStatus : Word) : List Byte :=
  if p.transceiveCycle && s.params.rigorCheckWaitTransmit then le32 rfStatus else []

/-- The own actions of a front-end that has moved to this state by the time RF_STATUS is read for the transmit-ready check, and
that does nothing else (R83, R89, R206). -/
def actsBeforeCheck (s : State) (p : ProtocolRequest) (n : BitVec 3) : List FeAct :=
  List.replicate (framesBeforeSend s p - 2) FeAct.nothing ++ [FeAct.state n]

/-- The own actions of the front-end are these, one for each frame, and none comes after them; where its input ends before they do,
those left out do nothing (log entry 7). -/
def State.ActsAs (s : State) (l : List FeAct) : Prop := ∃ n, s.fe.inputs.acts ++ List.replicate n FeAct.nothing = l

/-- The own actions of a front-end up to SendData that is in WaitTransmit where the transmit-ready check reads it, and that does
nothing else (R206). -/
def actsBeforeSend (s : State) (p : ProtocolRequest) : List FeAct :=
  if p.transceiveCycle && s.params.rigorCheckWaitTransmit then actsBeforeCheck s p 1
  else List.replicate (framesBeforeSend s p) FeAct.nothing

/-- The own actions of such a front-end up to a poll of IRQ_STATUS: nothing at SendData, and then before each poll it sets the
flags of the next word (R40, R208). -/
def actsUntilPoll (s : State) (p : ProtocolRequest) (raised : List Word) : List FeAct :=
  actsBeforeSend s p ++ FeAct.nothing :: raised.map FeAct.flags

/-- What a register of flags shows, read each time that the flags of the next word have been set. -/
def flagsShown (v : Word) : List Word → List Word
  | [] => []
  | w :: ws => (v ||| w) :: flagsShown (v ||| w) ws

/-- All the bytes of the write frames of a ProtocolTransact that reached SendData, in order (R200): those before it, SendData,
so many polls of IRQ_STATUS, then these (the length and the response), and the clear of the flags consumed. -/
def engineSends (s : State) (p : ProtocolRequest) (polls : Nat) (rest : List Byte) : List Byte :=
  bytesBeforeSend s p ++ 0x09 :: BitVec.ofNat 8 p.validBits :: p.req ++ (List.replicate polls [0x04, 0x02]).flatten ++
    rest ++ 0x00 :: 0x03 :: le32 0x00004007

/-- IRQ_STATUS of FE_REF from the transceive cycle on, before SendData: the idle command set IDLE (R63). -/
def flagsAfterIdle (s : State) (p : ProtocolRequest) : Word :=
  s.reg 0x02 ||| (if p.transceiveCycle then 0x00000004 else 0)

/-- The registers ProtocolTransact writes, after a request that reached SendData with FE_REF: both CRC controls, the command
field, and the flags it consumed, which are cleared; the flags it did not consume are as before (R203, R205, R216). -/
structure EngineLeft (s t : State) (p : ProtocolRequest) : Prop where
  crcTx : t.reg 0x19 = crcLeft s.params.crcEnMask p.crcTx (s.reg 0x19)
  crcRx : t.reg 0x12 = crcLeft s.params.crcEnMask p.crcRx (s.reg 0x12)
  systemConfig : t.reg 0x00 =
    if p.transceiveCycle then (s.reg 0x00 &&& ~~~s.params.cmdMask) ||| s.params.cmdTransceive else s.reg 0x00
  flags : t.reg 0x02 = s.reg 0x02 &&& ~~~0x00004007
  rest : ∀ a, a ∉ [0x00, 0x02, 0x12, 0x13, 0x19, 0x1D] → t.reg a = s.reg a
  txbuf : t.fe.store.txbuf = p.req
  around : BlockAround s t
  radio : t.fe.store.rfOn = s.fe.store.rfOn ∧ t.fe.store.cfgTx = s.fe.store.cfgTx ∧ t.fe.store.cfgRx = s.fe.store.cfgRx
  eeprom : EepromKept s t

/-- The end of an operation of the engine that had seen these flags: those it consumes are cleared and no others (R216), the block
is idle, and so many frames went over the bus, with these bytes. -/
structure EngineEnded (s t : State) (seen : Word) (rest : List Request) (frames : Nat) (out inp : List Byte) : Prop where
  flags : t.reg 0x02 = seen &&& ~~~0x00004007
  idle : t.xcvr.isIdle = true
  params : t.params = s.params
  requests : t.requests = rest
  traffic : Traffic s t frames out inp

/-- What SetRFOn and SetRFOff leave beside the RF field, in the front-end: IRQ_STATUS holds this, and every other register, the
buffers, the EEPROM, the profiles and the tag are as before. -/
structure FieldCommandLeft (s t : State) (irqStatus : Word) : Prop where
  irqStatus : t.reg 0x02 = irqStatus
  registers : RegistersKeptBut [0x02] s t
  buffers : BuffersKept s t
  eeprom : EepromKept s t
  cfgTx : t.fe.store.cfgTx = s.fe.store.cfgTx
  cfgRx : t.fe.store.cfgRx = s.fe.store.cfgRx
  tag : t.fe.store.tag = s.fe.store.tag

/-- SetRFOn and SetRFOff complete at poll number `k`, which shows the flag first: the command's frame, `k` reads of IRQ_STATUS, the
clear of that flag and of no other. IRQ_STATUS is as before until poll `k` and has the bits `w` more from then on. The polls are
ReadRegister, as R181 and R184 write them, and leave `irq_snap` as it was (log entry 15). -/
structure FieldSwitched (s t : State) (frame : List Byte) (flag w : Word) (k : Nat) : Prop where
  completion : t.completion = some ⟨.ok, .none⟩
  traffic : Traffic s t (1 + 2 * k + 1) (frame ++ (List.replicate k [0x04, 0x02]).flatten ++ 0x00 :: 0x03 :: le32 flag)
    ((List.replicate (k - 1) (le32 (s.reg 0x02))).flatten ++ le32 (s.reg 0x02 ||| w))
  left : FieldCommandLeft s t ((s.reg 0x02 ||| w) &&& ~~~flag)
  idle : t.xcvr.isIdle = true
  latches : LatchesKept s t
  params : t.params = s.params
  requests : t.requests = s.requests

/-- The tag of R238 with a UID of 4 bytes: what it answers to the frames of the activation. -/
def tag4 (wake q0 q1 a0 a1 a2 a3 a4 sak : Byte) : List TagRule :=
  [⟨some ([wake], 7), [q0, q1], false⟩, ⟨some ([0x93, 0x20], 0), [a0, a1, a2, a3, a4], false⟩,
    ⟨some ([0x93, 0x70, a0, a1, a2, a3, a4], 0), [sak], false⟩]

end Sys2Proof.Machine

namespace Sys2Proof

open Machine

/-- Every register address an operation of the block may use by itself is defined, as with the nine of R30. -/
def Params.usesDefined (p : Params) : Bool :=
  [0x00, 0x02, 0x03, 0x12, 0x13, 0x19, 0x1D].all fun a => registerDefined p a

/-- The commands of R31 are two values of one field. -/
def Params.commandsOk (p : Params) : Bool :=
  decide (p.cmdIdle = 0) && decide (p.cmdTransceive &&& p.cmdMask = p.cmdTransceive) && decide (p.cmdTransceive ≠ 0)

end Sys2Proof
end

