-- ==== Sys2Proof/Certificates/Slice0/Obligations.lean ====
section
/-! DEFINITION. What is claimed of the machine. Each statement's docstring names the rules of spec/ it formalises; a clause that
rests on a choice of the model's own names its log entry. -/

open Sys2Proof Sys2Proof.Machine

/-! ## Encodings -/

/-- Every well-formed command is read back from its encoding, with every operand at every value (R100 to R115). SwitchMode's own
encoding is the model's choice (log entry 9). -/
def Obligations.DecodeEncodeRoundTrip : Prop := ∀ i : Instr, i.wf = true → decode (encode i) = .ok i

/-- Each encoding stands for one command: what decodes to a command is that command's encoding, bit for bit. SwitchMode has no
layout (R112), and exactly the records whose byte 0 is 0x0B ask for it (log entry 9). -/
def Obligations.DecodedIsEncoded : Prop :=
  (∀ (e : Encoding) (i : Instr), decode e = .ok i → i ≠ .switchMode → encode i = e) ∧
  (∀ e : Encoding, decode e = .ok .switchMode ↔ e.frame.head? = some 0x0B)

/-- The opcode map is closed (R101): a frame is rejected as unlisted exactly when its first byte is none of the twelve opcodes,
whatever follows (R116). -/
def Obligations.OpcodeMapClosed : Prop :=
  ∀ (op : Byte) (rest : List Byte) (n : Nat),
    decode ⟨op :: rest, n⟩ = .error (.unlistedOpcode op) ↔
      op ∉ [0x00, 0x01, 0x02, 0x04, 0x06, 0x07, 0x09, 0x0A, 0x0B, 0x11, 0x16, 0x17]

/-- A frame that decodes has the number of bytes its opcode's layout has, and the read frame that follows has the size the
command gives it (R118). SwitchMode has no layout in the spec and is left out. -/
def Obligations.FrameLengthsChecked : Prop :=
  ∀ (op : Byte) (rest : List Byte) (n : Nat) (i : Instr), decode ⟨op :: rest, n⟩ = .ok i →
    (op = 0x00 ∨ op = 0x01 ∨ op = 0x02 → rest.length + 1 = 6 ∧ n = 0) ∧
    (op = 0x04 → rest.length + 1 = 2 ∧ n = 4) ∧
    (op = 0x0A → rest.length + 1 = 2) ∧
    (op = 0x16 ∨ op = 0x17 → rest.length + 1 = 2 ∧ n = 0) ∧
    (op = 0x07 → rest.length + 1 = 3 ∧ ∃ addr length : Byte, rest = [addr, length] ∧ n = length.toNat) ∧
    (op = 0x11 → rest.length + 1 = 3 ∧ n = 0) ∧
    (op = 0x06 → 3 ≤ rest.length + 1 ∧ rest.length + 1 ≤ 256 ∧ n = 0) ∧
    (op = 0x09 → 3 ≤ rest.length + 1 ∧ rest.length + 1 ≤ 262 ∧ n = 0)

/-- The example frames of R104 to R115, byte by byte. -/
def Obligations.SpecFramesDecode : Prop :=
  decode ⟨[0x00, 0x03, 0x07, 0x40, 0x00, 0x00], 0⟩ = .ok (.writeRegister 0x03 0x00004007) ∧
  decode ⟨[0x01, 0x00, 0x03, 0x00, 0x00, 0x00], 0⟩ = .ok (.writeRegisterOrMask 0x00 0x00000003) ∧
  decode ⟨[0x02, 0x00, 0xF8, 0xFF, 0xFF, 0xFF], 0⟩ = .ok (.writeRegisterAndMask 0x00 0xFFFFFFF8) ∧
  decode ⟨[0x04, 0x02], 4⟩ = .ok (.readRegister 0x02) ∧
  decode ⟨[0x06, 0x10, 0xAA, 0xBB], 0⟩ = .ok (.writeEEPROM 0x10 [0xAA, 0xBB]) ∧
  decode ⟨[0x07, 0x10, 0x02], 2⟩ = .ok (.readEEPROM 0x10 2) ∧
  decode ⟨[0x09, 0x07, 0x26], 0⟩ = .ok (.sendData [0x26] 7) ∧
  decode ⟨[0x0A, 0x00], 2⟩ = .ok (.readData 2) ∧
  decode ⟨[0x11, 0x0D, 0x8D], 0⟩ = .ok (.loadRFConfig 0x0D 0x8D) ∧
  decode ⟨[0x16, 0x00], 0⟩ = .ok .rfOn ∧
  decode ⟨[0x17, 0x00], 0⟩ = .ok .rfOff

/-- What the block accepts always fits its buffers: 2 to 262 bytes to send, at most 508 to capture (R26, R142), and the frame
decodes to the very command. -/
def Obligations.AcceptedFramesFit : Prop :=
  ∀ (p : Params) (i : Instr), paramError p i = none → i ≠ .switchMode →
    2 ≤ (encode i).frame.length ∧ (encode i).frame.length ≤ 262 ∧ (encode i).readLen ≤ 508 ∧ decode (encode i) = .ok i

/-! ## The step -/

/-- A step of the idle block runs the command that the record at the head of the client port decodes to, with that record
taken off; the word of a table row put there runs as the instruction it decodes to (how a program comes in is log entry 10);
and with `xc_busy` = 1 no operation is accepted (R23), which the model says by a fault (the model's choice, log entry 18). -/
def Obligations.StepRunsDecodedInstruction : Prop :=
  (∀ (s : State) (e : Encoding) (i : Instr) (rest : List Request), s.xcvr.xcBusy = false →
    s.requests = .encoded e :: rest → decode e = .ok i → step s = exec i { s with requests := rest }) ∧
  (∀ (s : State) (i : Instr) (rest : List Request), s.xcvr.xcBusy = false →
    s.requests = .direct i :: rest → step s = exec i { s with requests := rest }) ∧
  (∀ (s : State) (nbits w : Nat) (i : Instr), s.xcvr.xcBusy = false → decodeTableWord nbits w = some i →
    step (s.withFetchWord nbits w) = exec i s) ∧
  (∀ s : State, s.xcvr.xcBusy = true → step s = .fault .operationInProgress)

/-- A request of no listed kind, and a record with an unlisted opcode, end Unsupported with no exchange, and every register of an
idle block is as before (R263). -/
def Obligations.UnlistedRequestsUnsupported : Prop :=
  ∀ (s : State) (r : Request) (rest : List Request), s.xcvr.xcBusy = false → s.requests = r :: rest →
    ((∃ k, r = .unlisted k) ∨ (∃ e op, r = .encoded e ∧ decode e = .error (.unlistedOpcode op))) →
    ∃ t, step s = .next t ∧ Rejected { s with requests := rest } t .unsupported ∧ (s.xcvr.isIdle = true → t.xcvr = s.xcvr)

/-- Every operation ends (R316): whatever a front-end that is not FE_REF does, and wherever a reset event lands, the idle block
runs the record at the head of the port to a next state, unless the record is an encoding no command has (which the model
refuses, log entry 19); and whatever the front-end is, where a step with no reset event on its way answers a next state, a
completion record is there and the block is idle again (R260, R279). -/
def Obligations.EveryOperationCompletes : Prop :=
  (∀ (s t : State) (r : Request) (rest : List Request), s.resetIn = none → s.requests = r :: rest → step s = .next t →
    t.completion.isSome = true ∧ t.xcvr.isIdle = true ∧ t.requests = rest) ∧
  (∀ (s : State) (r : Request) (rest : List Request), s.xcvr.xcBusy = false → s.fe.kind = .unconstrained →
    s.requests = r :: rest →
    (∀ e, r = .encoded e → (∃ i, decode e = .ok i) ∨ ∃ op, decode e = .error (.unlistedOpcode op)) →
    ∃ t, step s = .next t)

/-- No operation is cut off by the model: in every state, with every front-end that is not FE_REF, every direct command runs to
a next state. (FE_REF's own refusals are those of R62, R64.) -/
def Obligations.UnconstrainedNeverRefuses : Prop :=
  ∀ (s : State) (i : Instr), s.fe.kind = .unconstrained → ∃ t, exec i s = .next t

/-! ## The register commands -/

/-- WriteRegister to a plain storage register: the register holds the value, and nothing else changes but for the transceive
state of a front-end that is not FE_REF, which a write that changes the command field of SYSTEM_CONFIG leaves open (R83, R151; log
entry 34). That an address outside the nine of R30 is a plain storage register is log entry 26. SYSTEM_CONFIG of FE_REF has a
statement of its own. -/
def Obligations.WriteRegisterStores : Prop :=
  ∀ (s : State) (addr : Byte) (v : Word), s.Quiet → registerDefined s.params addr = true → isPlainReg addr = true →
    (s.fe.kind = .reference → addr ≠ 0x00) →
    ∃ t, exec (.writeRegister addr v) s = .next t ∧ DirectDone s t .none 1 (0x00 :: addr :: le32 v) [] ∧
      RegisterWritten s t addr v

/-- A write to IRQ_CLEAR clears the named bits of IRQ_STATUS and no other bit, and changes nothing else (R34). -/
def Obligations.WriteIrqClearClears : Prop :=
  ∀ (s : State) (m : Word), s.Quiet → registerDefined s.params 0x03 = true →
    ∃ t, exec (.writeRegister 0x03 m) s = .next t ∧ DirectDone s t .none 1 (0x00 :: 0x03 :: le32 m) [] ∧
      t.reg 0x02 = s.reg 0x02 &&& ~~~m ∧ RegistersKeptBut [0x02] s t ∧ StoreKept s t

/-- The three register writes to SYSTEM_CONFIG of FE_REF: the value, what the command field then does, and nothing else
(R62, R63). -/
def Obligations.SystemConfigMovesReference : Prop :=
  ∀ (s : State) (m : Word), s.Quiet → s.fe.kind = .reference → registerDefined s.params 0x00 = true →
    (∃ t, exec (.writeRegister 0x00 m) s = .next t ∧ DirectDone s t .none 1 (0x00 :: 0x00 :: le32 m) [] ∧
      SystemConfigLeft s t m ∧ StoreKept s t) ∧
    (∃ t, exec (.writeRegisterOrMask 0x00 m) s = .next t ∧ DirectDone s t .none 1 (0x01 :: 0x00 :: le32 m) [] ∧
      SystemConfigLeft s t (s.reg 0x00 ||| m) ∧ StoreKept s t) ∧
    (∃ t, exec (.writeRegisterAndMask 0x00 m) s = .next t ∧ DirectDone s t .none 1 (0x02 :: 0x00 :: le32 m) [] ∧
      SystemConfigLeft s t (s.reg 0x00 &&& m) ∧ StoreKept s t)

/-- WriteRegisterOrMask on a plain storage register: the old value OR the mask, and nothing else changes but for the
transceive state of a front-end that is not FE_REF, which a write that changes the command field of SYSTEM_CONFIG leaves open (R83,
R152; log entry 34). An address outside the nine of R30 is a plain storage register (log entry 26). SYSTEM_CONFIG of FE_REF has a
statement of its own. -/
def Obligations.OrMaskSets : Prop :=
  ∀ (s : State) (addr : Byte) (m : Word), s.Quiet → registerDefined s.params addr = true → isPlainReg addr = true →
    (s.fe.kind = .reference → addr ≠ 0x00) →
    ∃ t, exec (.writeRegisterOrMask addr m) s = .next t ∧ DirectDone s t .none 1 (0x01 :: addr :: le32 m) [] ∧
      RegisterWritten s t addr (s.reg addr ||| m)

/-- WriteRegisterAndMask on a plain storage register: the old value AND the mask, and nothing else changes but for the
transceive state of a front-end that is not FE_REF, which a write that changes the command field of SYSTEM_CONFIG leaves open (R83,
R153; log entry 34). An address outside the nine of R30 is a plain storage register (log entry 26). SYSTEM_CONFIG of FE_REF has a
statement of its own. -/
def Obligations.AndMaskClears : Prop :=
  ∀ (s : State) (addr : Byte) (m : Word), s.Quiet → registerDefined s.params addr = true → isPlainReg addr = true →
    (s.fe.kind = .reference → addr ≠ 0x00) →
    ∃ t, exec (.writeRegisterAndMask addr m) s = .next t ∧ DirectDone s t .none 1 (0x02 :: addr :: le32 m) [] ∧
      RegisterWritten s t addr (s.reg addr &&& m)

/-- A masked write is a read, an OR or AND of the value read, and a write of it (R81, R152, R153): for a plain storage register
both ways leave the front-end the same, whatever its kind. Where the write changes the command field of SYSTEM_CONFIG in a
front-end that is not FE_REF, that is said of all but the transceive state, which is open after each (R83, log entry 34). An address
outside the nine of R30 is a plain storage register (log entry 26). -/
def Obligations.MaskedWriteIsReadModifyWrite : Prop :=
  ∀ (s : State) (addr : Byte) (m : Word), s.Quiet → registerDefined s.params addr = true → isPlainReg addr = true →
    ∃ (read : State) (v : Word), exec (.readRegister addr) s = .next read ∧ read.completion = some ⟨.ok, .value v⟩ ∧
      (∃ one two, exec (.writeRegister addr (v ||| m)) read = .next one ∧ exec (.writeRegisterOrMask addr m) s = .next two ∧
        WrittenAlike s one two addr (v ||| m)) ∧
      (∃ one two, exec (.writeRegister addr (v &&& m)) read = .next one ∧ exec (.writeRegisterAndMask addr m) s = .next two ∧
        WrittenAlike s one two addr (v &&& m))

/-- A write aimed at a status register, and a masked write aimed at a status register or at IRQ_CLEAR, is sent, and completes
with a front-end that is not FE_REF: the register touched takes any value, and nothing else changes (U5). A masked write at
IRQ_CLEAR touches IRQ_STATUS (the model's choice, log entry 14). -/
def Obligations.StatusWritesComplete : Prop :=
  ∀ (s : State) (i : Instr) (addr : Byte) (x : Word), s.Quiet → s.fe.kind = .unconstrained →
    registerDefined s.params addr = true →
    (i = .writeRegister addr x ∧ isStatusReg addr = true ∨
      (i = .writeRegisterOrMask addr x ∨ i = .writeRegisterAndMask addr x) ∧ isPlainReg addr = false) →
    ∃ t, exec i s = .next t ∧ DirectDone s t .none 1 (encode i).frame [] ∧
      RegistersKeptBut [if addr = 0x03 then 0x02 else addr, 0x03] s t ∧ StoreKept s t

/-- ReadRegister delivers the register's value, in one exchange of two frames, and changes no register and clears no flag (R82,
R154); only what a read of IRQ_CLEAR returns is another value the next time (U5). -/
def Obligations.ReadRegisterReads : Prop :=
  ∀ (s : State) (addr : Byte), s.Quiet → registerDefined s.params addr = true →
    (s.fe.kind = .reference → addr ≠ 0x03) →
    ∃ t, exec (.readRegister addr) s = .next t ∧
      DirectDone s t (.value (s.reg addr)) 2 [0x04, addr] (le32 (s.reg addr)) ∧
      RegistersKeptBut (if addr = 0x03 then [0x03] else []) s t ∧ StoreKept s t

/-- Write then read returns the value written, for every value and every plain storage register (R155). An address outside the nine
of R30 is a plain storage register (log entry 26). -/
def Obligations.RegisterRoundTrip : Prop :=
  ∀ (s : State) (addr : Byte) (v : Word), s.Quiet → registerDefined s.params addr = true → isPlainReg addr = true →
    ∃ t u, exec (.writeRegister addr v) s = .next t ∧ exec (.readRegister addr) t = .next u ∧
      u.completion = some ⟨.ok, .value v⟩

/-- A register command for an address outside `DEFINED_REGS` ends ParamError(BadRegister), with no exchange (R150). -/
def Obligations.UndefinedRegisterRejected : Prop :=
  ∀ (s : State) (i : Instr) (addr : Byte) (x : Word), registerDefined s.params addr = false →
    (i = .writeRegister addr x ∨ i = .writeRegisterOrMask addr x ∨ i = .writeRegisterAndMask addr x ∨
      i = .readRegister addr) →
    ∃ t, exec i s = .next t ∧ Rejected s t (.paramError .badRegister)

/-- What FE_REF refuses of the register frames: a write to a status register, a masked write to a status register or to
IRQ_CLEAR, and a read of IRQ_CLEAR (R62); it refuses a frame when it processes it, so that BUSY at 1 or a reset event before
ends the operation otherwise (log entry 20). It refuses no other write, masked or not, and no other read, in whatever state; that
an address outside the nine of R30 is a plain storage register is log entry 26. -/
def Obligations.ReferenceRefusesRegisterFrames : Prop :=
  ∀ (s : State) (addr : Byte) (x : Word), s.fe.kind = .reference → registerDefined s.params addr = true →
    (s.Quiet →
      (isStatusReg addr = true → exec (.writeRegister addr x) s = .refused (.frontEndRefusesWrite addr)) ∧
      (isPlainReg addr = false →
        exec (.writeRegisterOrMask addr x) s = .refused (.frontEndRefusesMaskedWrite addr) ∧
        exec (.writeRegisterAndMask addr x) s = .refused (.frontEndRefusesMaskedWrite addr)) ∧
      (addr = 0x03 → exec (.readRegister addr) s = .refused (.frontEndRefusesRead addr))) ∧
    (isStatusReg addr = false → ∃ t, exec (.writeRegister addr x) s = .next t) ∧
    (isPlainReg addr = true → ∃ t, exec (.writeRegisterOrMask addr x) s = .next t) ∧
    (isPlainReg addr = true → ∃ t, exec (.writeRegisterAndMask addr x) s = .next t) ∧
    (addr ≠ 0x03 → ∃ t, exec (.readRegister addr) s = .next t)

/-! ## The EEPROM commands -/

/-- WriteEEPROM stores every byte of its data, byte 0 at the address it names, in one frame; every other byte of the EEPROM and
everything else is as before (R162). -/
def Obligations.WriteEepromStores : Prop :=
  ∀ (s : State) (addr : Nat) (data : List Byte), s.Quiet → eepromInRange addr data.length = true →
    ∃ t, exec (.writeEEPROM addr data) s = .next t ∧
      DirectDone s t .none 1 (0x06 :: BitVec.ofNat 8 addr :: data) [] ∧
      (∀ k (h : k < data.length), t.eepromAt (addr + k) = data[k]) ∧
      (∀ a, a < addr ∨ addr + data.length ≤ a → t.eepromAt a = s.eepromAt a) ∧
      RegistersKeptBut [] s t ∧ BuffersKept s t ∧ RadioKept s t

/-- ReadEEPROM delivers the bytes of the EEPROM, the one at the address first, in one exchange of two frames, and changes
nothing (R161). -/
def Obligations.ReadEepromReads : Prop :=
  ∀ (s : State) (addr length : Nat), s.Quiet → eepromInRange addr length = true →
    ∃ t b, exec (.readEEPROM addr length) s = .next t ∧
      DirectDone s t (.bytes b) 2 [0x07, BitVec.ofNat 8 addr, BitVec.ofNat 8 length] b ∧
      b.length = length ∧ (∀ k (h : k < b.length), b[k] = s.eepromAt (addr + k)) ∧
      RegistersKeptBut [] s t ∧ StoreKept s t

/-- The range check of both EEPROM commands, on the operands as they are given, with no wrap: where it fails there is no
exchange (R160, R163); that a length of 0 fails it is the spec's own decision D10. -/
def Obligations.EepromRangeChecked : Prop :=
  ∀ (s : State) (addr length : Nat) (data : List Byte),
    (addr > 254 ∨ addr + length > 254 ∨ length = 0 →
      ∃ t, exec (.readEEPROM addr length) s = .next t ∧ Rejected s t (.paramError .badEepromRange)) ∧
    (addr > 254 ∨ addr + data.length > 254 ∨ data.length = 0 →
      ∃ t, exec (.writeEEPROM addr data) s = .next t ∧ Rejected s t (.paramError .badEepromRange))

/-! ## The RF data commands -/

/-- SendData fills the transmit buffer of a front-end that is in WaitTransmit, in one frame; in any other state the front-end
takes the payload or does not (U3 says any value; that it is one of the two, and that nothing else changes, is the model's
choice, log entry 12). That the valid-bit byte comes before the payload is decision D8. -/
def Obligations.SendDataFills : Prop :=
  ∀ (s : State) (bytes : List Byte) (validBits : Nat), s.Quiet → s.fe.kind = .unconstrained →
    1 ≤ bytes.length → bytes.length ≤ 260 → validBits ≤ 7 →
    ∃ t, exec (.sendData bytes validBits) s = .next t ∧
      DirectDone s t .none 1 (0x09 :: BitVec.ofNat 8 validBits :: bytes) [] ∧
      (t.fe.store.txbuf = bytes ∧ t.fe.store.txValidBits = BitVec.ofNat 3 validBits ∨
        s.fe.store.ts ≠ 1 ∧ t.fe.store.txbuf = s.fe.store.txbuf ∧ t.fe.store.txValidBits = s.fe.store.txValidBits) ∧
      t.fe.store.rxbuf = s.fe.store.rxbuf ∧ RegistersKeptBut [0x03] s t ∧ RadioKept s t ∧ EepromKept s t

/-- SendData with FE_REF, in whatever state it is: the buffer is filled, TX is set, the state is WaitReceive, and the tag is asked;
an answer of 1 to 508 bytes is received whole, with its length, RX_SOF_DET and RX, and the state Idle (R64). R64 is silent on an
answer above 508 bytes, which is lost here like no answer (the model's choice, log entry 27). -/
def Obligations.SendDataOnReference : Prop :=
  ∀ (s : State) (bytes : List Byte) (validBits : Nat) (r : List Byte), s.Quiet → s.fe.kind = .reference →
    1 ≤ bytes.length → bytes.length ≤ 260 → validBits ≤ 7 → (tagAnswer bytes validBits s.fe.store.tag).1 = r →
    ∃ t, exec (.sendData bytes validBits) s = .next t ∧
      DirectDone s t .none 1 (0x09 :: BitVec.ofNat 8 validBits :: bytes) [] ∧
      t.fe.store.txbuf = bytes ∧ t.fe.store.txValidBits = BitVec.ofNat 3 validBits ∧
      (1 ≤ r.length ∧ r.length ≤ 508 →
        t.fe.store.rxbuf = r ∧ t.reg 0x13 = (s.reg 0x13 &&& ~~~0x000001FF) ||| BitVec.ofNat 32 r.length ∧
        t.reg 0x02 = s.reg 0x02 ||| 0x00004003 ∧ t.fe.store.ts = 0) ∧
      (r.length = 0 ∨ 508 < r.length →
        t.fe.store.rxbuf = s.fe.store.rxbuf ∧ t.reg 0x13 = s.reg 0x13 ∧ t.reg 0x02 = s.reg 0x02 ||| 0x00000002 ∧
        t.fe.store.ts = 3) ∧
      RegistersKeptBut [0x02, 0x13, 0x1D] s t ∧ EepromKept s t ∧ t.fe.store.rfOn = s.fe.store.rfOn ∧
      t.fe.store.cfgTx = s.fe.store.cfgTx ∧ t.fe.store.cfgRx = s.fe.store.cfgRx

/-- The checks of SendData, the length first: where one fails there is no exchange (R171). -/
def Obligations.SendDataChecked : Prop :=
  ∀ (s : State) (bytes : List Byte) (validBits : Nat),
    (bytes.length = 0 ∨ 260 < bytes.length →
      ∃ t, exec (.sendData bytes validBits) s = .next t ∧ Rejected s t (.paramError .badSendLength)) ∧
    (1 ≤ bytes.length → bytes.length ≤ 260 → 7 < validBits →
      ∃ t, exec (.sendData bytes validBits) s = .next t ∧ Rejected s t (.paramError .badValidBits))

/-- ReadData delivers the bytes of the receive buffer, the first received first, in one exchange of two frames (R174). A
front-end that is not FE_REF gives any value beyond what it has received, and what its buffer then holds is open (U6, U7);
FE_REF keeps its buffer (R64). Nothing else changes; that RX_STATUS of a front-end that is not FE_REF is kept is the model's
choice (log entry 13), and that the second byte of the frame is a constant and the count no part of it is decision D31. -/
def Obligations.ReadDataReads : Prop :=
  ∀ (s : State) (n : Nat), s.Quiet → 1 ≤ n → n ≤ 508 → (s.fe.kind = .reference → n ≤ s.fe.store.rxbuf.length) →
    ∃ t b, exec (.readData n) s = .next t ∧ DirectDone s t (.bytes b) 2 [0x0A, 0x00] b ∧ b.length = n ∧
      (s.fe.kind = .reference → b = s.fe.store.rxbuf.take n ∧ t.fe.store.rxbuf = s.fe.store.rxbuf) ∧
      (s.fe.kind = .unconstrained → ∀ k (h : k < b.length) (h' : k < s.fe.store.rxbuf.length),
        k < (lengthField (s.reg 0x13)).toNat → b[k] = s.fe.store.rxbuf[k]) ∧
      RegistersKeptBut [0x03] s t ∧ t.fe.store.txbuf = s.fe.store.txbuf ∧
      t.fe.store.txValidBits = s.fe.store.txValidBits ∧ RadioKept s t ∧ EepromKept s t

/-- ReadData of FE_REF beyond what it received is refused by the front-end, when it processes the frame (R64, log entry 20). -/
def Obligations.ReferenceRefusesReadBeyond : Prop :=
  ∀ (s : State) (n : Nat), s.Quiet → s.fe.kind = .reference → 1 ≤ n → n ≤ 508 → s.fe.store.rxbuf.length < n →
    exec (.readData n) s = .refused (.frontEndRefusesReadData n)

/-- The check of ReadData: where it fails there is no exchange (R175). -/
def Obligations.ReadDataChecked : Prop :=
  ∀ (s : State) (n : Nat), n = 0 ∨ 508 < n →
    ∃ t, exec (.readData n) s = .next t ∧ Rejected s t (.paramError .badReadLength)

/-! ## The RF control and system commands -/

/-- LoadRFConfig loads both profiles, 0xFF leaving one unchanged, for every pair of bytes, in one frame (R180). In FE_REF nothing
else changes (R65), nor for the pair 0xFF, 0xFF; in another front-end the profile may leave any value in the registers that
configure it (U13, R307), and what it does not touch is log entry 32. -/
def Obligations.LoadRFConfigLoads : Prop :=
  ∀ (s : State) (tx rx : Byte), s.Quiet →
    ∃ t, exec (.loadRFConfig tx rx) s = .next t ∧ DirectDone s t .none 1 [0x11, tx, rx] [] ∧
      t.fe.store.cfgTx = (if tx = 0xFF then s.fe.store.cfgTx else tx) ∧
      t.fe.store.cfgRx = (if rx = 0xFF then s.fe.store.cfgRx else rx) ∧
      t.fe.store.rfOn = s.fe.store.rfOn ∧ t.fe.store.tag = s.fe.store.tag ∧ t.fe.store.ts = s.fe.store.ts ∧
      (∀ a, a ∈ [0x01, 0x02, 0x13] → t.reg a = s.reg a) ∧
      (s.fe.kind = .reference ∨ (tx = 0xFF ∧ rx = 0xFF) → RegistersKeptBut [] s t) ∧ BuffersKept s t ∧ EepromKept s t

/-- SetRFOn (R181). Where the front-end is FE_REF (R65, decision D26) or shows a stale TX_RFON (R185), the first poll ends it, and
the field is known to be on in FE_REF. Where a front-end that is not FE_REF sets TX_RFON by an action of its own (whose form is log
entry 7), seen at poll `k` of at most `N_IRQ_POLLS`, it completes at that poll and the field is on (that TX_RFON says so is log
entry 31). Either way that flag is cleared and no other, and the polls leave `irq_snap` as it was: they are ReadRegister (log
entry 15). -/
def Obligations.SetRFOnSwitches : Prop :=
  (∀ s : State, s.Quiet → s.params.usesDefined = true → 1 ≤ s.params.nIrqPolls →
    (s.fe.kind = .reference ∨ (s.reg 0x02).getLsbD 9 = true) →
    ∃ t, exec .rfOn s = .next t ∧ FieldSwitched s t [0x16, 0x00] 0x00000200 0x00000200 1 ∧ BlockAround s t ∧
      (s.fe.kind = .reference → t.fe.store.rfOn = true)) ∧
  (∀ (s : State) (k : Nat) (w : Word), s.Calm → s.fe.kind = .unconstrained → s.params.usesDefined = true →
    s.fe.inputs.acts = List.replicate k FeAct.nothing ++ [FeAct.flags w] → 1 ≤ k → k ≤ s.params.nIrqPolls →
    (s.reg 0x02).getLsbD 9 = false → w.getLsbD 9 = true → w.getLsbD 8 = false →
    ∃ t, exec .rfOn s = .next t ∧ FieldSwitched s t [0x16, 0x00] 0x00000200 w k ∧ t.fe.store.rfOn = true)

/-- SetRFOff (R182), as SetRFOn: the flag is TX_RFOFF, and the field is off where SetRFOn says it is on (FE_REF by R65 and decision
D26; the form of the own action is log entry 7, that TX_RFOFF says that the field is off is log entry 31, that the polls leave
`irq_snap` as it was is log entry 15). -/
def Obligations.SetRFOffSwitches : Prop :=
  (∀ s : State, s.Quiet → s.params.usesDefined = true → 1 ≤ s.params.nIrqPolls →
    (s.fe.kind = .reference ∨ (s.reg 0x02).getLsbD 8 = true) →
    ∃ t, exec .rfOff s = .next t ∧ FieldSwitched s t [0x17, 0x00] 0x00000100 0x00000100 1 ∧ BlockAround s t ∧
      (s.fe.kind = .reference → t.fe.store.rfOn = false)) ∧
  (∀ (s : State) (k : Nat) (w : Word), s.Calm → s.fe.kind = .unconstrained → s.params.usesDefined = true →
    s.fe.inputs.acts = List.replicate k FeAct.nothing ++ [FeAct.flags w] → 1 ≤ k → k ≤ s.params.nIrqPolls →
    (s.reg 0x02).getLsbD 8 = false → w.getLsbD 8 = true → w.getLsbD 9 = false →
    ∃ t, exec .rfOff s = .next t ∧ FieldSwitched s t [0x17, 0x00] 0x00000100 w k ∧ t.fe.store.rfOn = false)

/-- SetRFOn and SetRFOff when the flag never appears: `N_IRQ_POLLS` full reads of IRQ_STATUS, then BusTimeout(IrqPoll), and no
flag is cleared (R184). -/
def Obligations.FieldFlagPollBounded : Prop :=
  ∀ (s : State) (i : Instr) (bit : Nat), s.Quiet → s.fe.kind = .unconstrained → s.params.usesDefined = true →
    (i = .rfOn ∧ bit = 9 ∨ i = .rfOff ∧ bit = 8) → (s.reg 0x02).getLsbD bit = false →
    ∃ t, exec i s = .next t ∧ t.completion = some ⟨.busTimeout .irqPoll, .none⟩ ∧
      Traffic s t (1 + 2 * s.params.nIrqPolls)
        ((encode i).frame ++ (List.replicate s.params.nIrqPolls [0x04, 0x02]).flatten)
        (List.replicate s.params.nIrqPolls (le32 (s.reg 0x02))).flatten ∧
      RegistersKeptBut [] s t ∧ BlockAround s t

/-- SwitchMode ends Unsupported, with no exchange and no effect: every register of an idle block is as before (R186, R263). The
kind alone decides (R277): a step of the idle block ends so for every record whose byte 0 is 0x0B, whatever follows it (that byte
0 alone is the request is log entry 9). -/
def Obligations.SwitchModeUnsupported : Prop :=
  (∀ s : State, ∃ t, exec .switchMode s = .next t ∧ Rejected s t .unsupported ∧
    (s.xcvr.isIdle = true → t.xcvr = s.xcvr)) ∧
  (∀ (s : State) (bytes : List Byte) (n : Nat) (rest : List Request), s.xcvr.xcBusy = false →
    s.requests = .encoded ⟨0x0B :: bytes, n⟩ :: rest →
    ∃ t, step s = .next t ∧ Rejected { s with requests := rest } t .unsupported ∧
      (s.xcvr.isIdle = true → t.xcvr = s.xcvr))

/-! ## The IRQ and status decoder -/

/-- GetIrqStatus delivers IRQ_STATUS and its eight named bits, by one ReadRegister; the snapshot is latched, and no flag is
cleared (R190, R191). -/
def Obligations.GetIrqStatusReads : Prop :=
  ∀ (s : State) (rest : List Request), s.Quiet → s.xcvr.xcBusy = false → registerDefined s.params 0x02 = true →
    s.requests = .getIrqStatus :: rest →
    ∃ t, step s = .next t ∧
      t.completion = some ⟨.ok, .irqStatus (s.reg 0x02)
        { rx := (s.reg 0x02).getLsbD 0, tx := (s.reg 0x02).getLsbD 1, idle := (s.reg 0x02).getLsbD 2
          rfOffDet := (s.reg 0x02).getLsbD 6, rfOnDet := (s.reg 0x02).getLsbD 7
          txRfOff := (s.reg 0x02).getLsbD 8, txRfOn := (s.reg 0x02).getLsbD 9
          rxSofDet := (s.reg 0x02).getLsbD 14 }⟩ ∧
      t.xcvr.irqSnap = s.reg 0x02 ∧ t.xcvr.pe = { s.xcvr.pe with stage := .idle } ∧
      Traffic s t 2 [0x04, 0x02] (le32 (s.reg 0x02)) ∧ BlockAround s t ∧
      RegistersKeptBut [] s t ∧ StoreKept s t ∧ t.requests = rest

/-- ClearIrqStatus clears the flags of its mask in the front-end, by one WriteRegister of IRQ_CLEAR, and no others (R192). -/
def Obligations.ClearIrqStatusClears : Prop :=
  ∀ (s : State) (m : Word) (rest : List Request), s.Quiet → s.xcvr.xcBusy = false →
    registerDefined s.params 0x03 = true → s.requests = .clearIrqStatus m :: rest →
    ∃ t, step s = .next t ∧ DirectDone { s with requests := rest } t .none 1 (0x00 :: 0x03 :: le32 m) [] ∧
      t.reg 0x02 = s.reg 0x02 &&& ~~~m ∧ RegistersKeptBut [0x02] s t ∧ StoreKept s t

/-- GetTransceiveState delivers the state whose number RF_STATUS holds, by one ReadRegister, and changes nothing (R193, R194). -/
def Obligations.GetTransceiveStateReads : Prop :=
  ∀ (s : State) (rest : List Request), s.Quiet → s.xcvr.xcBusy = false → registerDefined s.params 0x1D = true →
    s.params.wf = true → s.requests = .getTransceiveState :: rest →
    ∃ t, step s = .next t ∧
      DirectDone { s with requests := rest } t (.transceiveState (transceiveState s.fe.store.ts)) 2 [0x04, 0x1D]
        (le32 (s.reg 0x1D)) ∧
      RegistersKeptBut [] s t ∧ StoreKept s t

/-- The eight transceive states in numeric order (R194). -/
def Obligations.TransceiveStateNumbers : Prop :=
  transceiveState 0 = .idle ∧ transceiveState 1 = .waitTransmit ∧ transceiveState 2 = .transmitting ∧
  transceiveState 3 = .waitReceive ∧ transceiveState 4 = .waitForData ∧ transceiveState 5 = .receiving ∧
  transceiveState 6 = .loopBack ∧ transceiveState 7 = .reserved

/-- IsIrqAsserted delivers the level of the line at that moment, with no frame, and is Unsupported where the line is not fitted
(R195). FE_REF asserts the line exactly when a flag is set and enabled (R61). -/
def Obligations.IsIrqAssertedSamples : Prop :=
  ∀ (s : State) (rest : List Request), s.xcvr.xcBusy = false → s.requests = .isIrqAsserted :: rest →
    (s.params.irqFitted = true → ∃ t b, step s = .next t ∧ t.completion = some ⟨.ok, .line b⟩ ∧
      (s.fe.kind = .reference → (b = true ↔ s.reg 0x02 &&& s.reg 0x01 ≠ 0)) ∧
      (s.fe.kind = .unconstrained → b = s.fe.inputs.irq.headD s.fe.irq) ∧
      Traffic s t 0 [] [] ∧ t.fe.store = s.fe.store ∧ t.fe.busy = s.fe.busy ∧ t.xcvr.isIdle = true ∧
      t.requests = rest) ∧
    (s.params.irqFitted = false → ∃ t, step s = .next t ∧ Rejected { s with requests := rest } t .unsupported)

/-! ## The protocol engine -/

/-- The map of a tag's error byte (R214): the listed bytes, the custom range with its raw byte, UnknownError for every other
byte; and no byte means NoCard or Ok. -/
def Obligations.ErrorCodesMapped : Prop :=
  mapError 0x01 = .notSupported ∧ mapError 0x02 = .notRecognized ∧ mapError 0x03 = .optionNotSupported ∧
  mapError 0x0F = .unknownError ∧ mapError 0x10 = .blockNotAvailable ∧ mapError 0x11 = .blockAlreadyLocked ∧
  mapError 0x12 = .blockLocked ∧ mapError 0x13 = .blockNotProgrammed ∧ mapError 0x14 = .blockNotLocked ∧
  (∀ c : Byte, 0xA0 ≤ c.toNat → c.toNat ≤ 0xDF → mapError c = .customCommandError c) ∧
  (∀ c : Byte, c ∉ [0x01, 0x02, 0x03, 0x0F, 0x10, 0x11, 0x12, 0x13, 0x14] → c.toNat < 0xA0 ∨ 0xDF < c.toNat →
    mapError c = .unknownError) ∧
  (∀ c : Byte, mapError c ≠ .noCard ∧ mapError c ≠ .ok)

/-- The wait for the start-of-frame flag and what the response length leads to. First of the length alone: 511 and 0 are NoCard,
509 and 510 a parameter error, with no ReadData, and every other length is fetched (R211, R212, R213). Then of a whole operation
with a front-end that is not FE_REF, whose own actions set the flags `raised` before the polls, a word before each, and make its
state WaitTransmit by the time the transmit-ready check reads it (their form is log entry 7). The first poll that shows the flag ends
the wait, whatever else it shows, and so the last poll of the window does (R208, R278): the outcome is that of the length, the
frames are those of that poll number (R221), with all their bytes in order, and the flags consumed are cleared. Where none of
`N_RESP_POLLS` polls shows it the outcome is NoCard after that many. -/
def Obligations.ResponseLengthDecides : Prop :=
  (∀ w : Word,
    ((lengthField w).toNat = 511 ∨ (lengthField w).toNat = 0 → lengthVerdict (lengthField w).toNat = .inl .noCard) ∧
    ((lengthField w).toNat = 509 ∨ (lengthField w).toNat = 510 →
      lengthVerdict (lengthField w).toNat = .inl (.paramError .badReadLength)) ∧
    (1 ≤ (lengthField w).toNat → (lengthField w).toNat ≤ 508 →
      lengthVerdict (lengthField w).toNat = .inr (lengthField w).toNat) ∧
    (lengthField w).toNat = w.toNat % 512) ∧
  (∀ (s : State) (p : ProtocolRequest) (rest : List Request) (raised : List Word), s.Calm → s.fe.kind = .unconstrained →
    s.xcvr.xcBusy = false → s.requests = .protocolTransact p :: rest → p.accepted = true → s.params.wf = true →
    s.params.usesDefined = true → s.ActsAs (actsUntilPoll s p raised) →
    (∀ (k n : Nat) (before : List Word) (last : Word), raised.length = k → k ≤ s.params.nRespPolls →
      flagsShown (s.reg 0x02) raised = before ++ [last] → (∀ v ∈ before, v.getLsbD 14 = false) →
      last.getLsbD 14 = true → (lengthField (s.reg 0x13)).toNat = n →
      (n = 511 ∨ n = 0 → ∃ t, step s = .next t ∧ t.completion = some ⟨.noCard, .none⟩ ∧
        EngineEnded s t last rest (framesBeforeSend s p + 1 + 2 * k + 3) (engineSends s p k [0x04, 0x13])
          (readBeforeSend s p (t.reg 0x1D) ++ (before.map le32).flatten ++ le32 last ++ le32 (s.reg 0x13))) ∧
      (n = 509 ∨ n = 510 → ∃ t, step s = .next t ∧ t.completion = some ⟨.paramError .badReadLength, .none⟩ ∧
        EngineEnded s t last rest (framesBeforeSend s p + 1 + 2 * k + 3) (engineSends s p k [0x04, 0x13])
          (readBeforeSend s p (t.reg 0x1D) ++ (before.map le32).flatten ++ le32 last ++ le32 (s.reg 0x13))) ∧
      (1 ≤ n → n ≤ 508 → p.classify = false →
        ∃ t b, step s = .next t ∧ t.completion = some ⟨.ok, .response b none⟩ ∧ b.length = n ∧
          (∀ j (h : j < b.length) (h' : j < s.fe.store.rxbuf.length), b[j] = s.fe.store.rxbuf[j]) ∧
          EngineEnded s t last rest (framesBeforeSend s p + 1 + 2 * k + 5) (engineSends s p k [0x04, 0x13, 0x0A, 0x00])
            (readBeforeSend s p (t.reg 0x1D) ++ (before.map le32).flatten ++ le32 last ++ le32 (s.reg 0x13) ++ b))) ∧
    (raised.length = s.params.nRespPolls → (∀ v ∈ flagsShown (s.reg 0x02) raised, v.getLsbD 14 = false) →
      ∃ t, step s = .next t ∧ t.completion = some ⟨.noCard, .none⟩ ∧
        EngineEnded s t ((flagsShown (s.reg 0x02) raised).getLastD (s.reg 0x02)) rest
          (framesBeforeSend s p + 1 + 2 * s.params.nRespPolls + 1) (engineSends s p s.params.nRespPolls [])
          (readBeforeSend s p (t.reg 0x1D) ++ ((flagsShown (s.reg 0x02) raised).map le32).flatten)))

/-- A request with no bytes or too many, or with more than 7 valid bits, touches nothing (R201): no frame is sent, and the
front-end is as it was. -/
def Obligations.EngineChecksRequest : Prop :=
  ∀ (s : State) (p : ProtocolRequest) (rest : List Request), s.xcvr.xcBusy = false →
    s.requests = .protocolTransact p :: rest →
    (p.req.length = 0 ∨ 260 < p.req.length →
      ∃ t, step s = .next t ∧ t.completion = some ⟨.paramError .badSendLength, .none⟩ ∧ t.fe = s.fe ∧
        Traffic s t 0 [] []) ∧
    (1 ≤ p.req.length → p.req.length ≤ 260 → 7 < p.validBits →
      ∃ t, step s = .next t ∧ t.completion = some ⟨.paramError .badValidBits, .none⟩ ∧ t.fe = s.fe ∧
        Traffic s t 0 [] [])

/-- With no tag in the field ProtocolTransact ends NoCard within its window of `N_RESP_POLLS` polls, whatever the request: not
a hang, and the flags it consumed are cleared (R208, R209, R216); the frames are those of R200, byte for byte and in order.
The front-end is FE_REF with no stale start-of-frame flag
(R48). -/
def Obligations.NoTagEndsNoCard : Prop :=
  ∀ (s : State) (p : ProtocolRequest) (rest : List Request), s.Quiet → s.fe.kind = .reference → s.xcvr.xcBusy = false →
    s.requests = .protocolTransact p :: rest → p.accepted = true → s.params.wf = true → s.params.usesDefined = true →
    s.params.commandsOk = true → s.fe.store.tag = [] → (s.reg 0x02).getLsbD 14 = false →
    ∃ t, step s = .next t ∧ t.completion = some ⟨.noCard, .none⟩ ∧ t.requests = rest ∧ EngineLeft s t p ∧
      Traffic s t (framesBeforeSend s p + 1 + 2 * s.params.nRespPolls + 1) (engineSends s p s.params.nRespPolls [])
        (readBeforeSend s p (stateField s.params.tsShift 1) ++
          (List.replicate s.params.nRespPolls (le32 (flagsAfterIdle s p ||| 0x00000002))).flatten)

/-- A tag's answer is delivered whole and classified (R213, R215, R217): bit 0 of byte 0 makes it an error whose code is byte 1,
a single byte with that bit is UnknownError, and else the outcome is Ok with bit 3 as the extension flag; without
classification any answer is Ok as it came. The front-end is FE_REF, the flag is seen at the first poll, and the frames are
those R221 counts, byte for byte and in the order of R200. -/
def Obligations.TagAnswerClassified : Prop :=
  ∀ (s : State) (p : ProtocolRequest) (rest : List Request) (f : Byte) (more : List Byte), s.Quiet →
    s.fe.kind = .reference → s.xcvr.xcBusy = false → s.requests = .protocolTransact p :: rest → p.accepted = true →
    s.params.wf = true → s.params.usesDefined = true → s.params.commandsOk = true →
    (tagAnswer p.req p.validBits s.fe.store.tag).1 = f :: more → more.length + 1 ≤ 508 →
    ∃ t, step s = .next t ∧ t.requests = rest ∧ EngineLeft s t p ∧
      (p.classify = false → t.completion = some ⟨.ok, .response (f :: more) none⟩) ∧
      (p.classify = true → f.getLsbD 0 = false →
        t.completion = some ⟨.ok, .response (f :: more) (some (f.getLsbD 3))⟩) ∧
      (p.classify = true → f.getLsbD 0 = true → more = [] →
        t.completion = some ⟨.tagError .unknownError, .response (f :: more) none⟩) ∧
      (∀ c later, p.classify = true → f.getLsbD 0 = true → more = c :: later →
        t.completion = some ⟨.tagError (mapError c), .response (f :: more) none⟩) ∧
      t.fe.store.rxbuf = f :: more ∧
      Traffic s t (framesBeforeSend s p + 8) (engineSends s p 1 [0x04, 0x13, 0x0A, 0x00])
        (readBeforeSend s p (stateField s.params.tsShift 1) ++ le32 (flagsAfterIdle s p ||| 0x00004003) ++
          le32 (t.reg 0x13) ++ f :: more)

/-- The transmit-ready check (R206). Whatever a front-end that answers does of its own, and whichever kind it is, a request ends
PreconditionViolation only with the state that the one read of RF_STATUS showed, one that is not WaitTransmit, and only where it
asks for the transceive cycle and the check is on: the frames are those of R200 up to the read, then the clear, SendData is not
issued and nothing is retried. And it does end so where an own action leaves such a state by the time RF_STATUS is read, whatever
state the front-end was in before and the start command left (R83, log entries 7 and 34); the flags are cleared. -/
def Obligations.NotReadyEndsPrecondition : Prop :=
  (∀ (s t : State) (p : ProtocolRequest) (rest : List Request) (n : BitVec 3) (result : Result), s.Calm →
    s.requests = .protocolTransact p :: rest → step s = .next t →
    t.completion = some ⟨.preconditionViolation n, result⟩ →
    p.transceiveCycle = true ∧ s.params.rigorCheckWaitTransmit = true ∧ n ≠ 1 ∧ result = .none ∧
      t.xcvr.isIdle = true ∧
      ∃ v, tsField s.params.tsShift v = n ∧
        Traffic s t (framesBeforeSend s p + 1) (bytesBeforeSend s p ++ 0x00 :: 0x03 :: le32 0x00004007) (le32 v)) ∧
  (∀ (s : State) (p : ProtocolRequest) (rest : List Request) (n : BitVec 3), s.Calm → s.fe.kind = .unconstrained →
    s.xcvr.xcBusy = false → s.requests = .protocolTransact p :: rest → p.accepted = true → s.params.wf = true →
    s.params.usesDefined = true → s.params.rigorCheckWaitTransmit = true → p.transceiveCycle = true →
    s.fe.inputs.acts = actsBeforeCheck s p n → n ≠ 1 →
    ∃ t, step s = .next t ∧ t.completion = some ⟨.preconditionViolation n, .none⟩ ∧
      t.reg 0x02 = s.reg 0x02 &&& ~~~0x00004007 ∧ BuffersKept s t ∧ t.xcvr.isIdle = true ∧ t.params = s.params ∧
      t.requests = rest ∧ t.fe.store.ts = n ∧
      Traffic s t (framesBeforeSend s p + 1) (bytesBeforeSend s p ++ 0x00 :: 0x03 :: le32 0x00004007)
        (le32 (t.reg 0x1D)))

/-! ## The bus -/

/-- A wait for BUSY ends at the first sample that shows the level, even the last one the bound allows, and raises BusTimeout
with its cause when none of `T_BUSY` + 1 samples shows it (R137, R278). -/
def Obligations.BusyWaitBounded : Prop :=
  ∀ (s : State) (ph : BtPhase) (level : Bool) (cause : BusCause) (k : Nat) (more : List Bool),
    s.fe.kind = .unconstrained → s.resetIn = none → s.fe.inputs.busy = List.replicate k (!level) ++ level :: more →
    (k ≤ s.params.tBusy → ∃ t, waitBusy ph level cause s = .ok () t ∧ t.fe.inputs.busy = more ∧
      t.xcvr.bus.timer = k ∧ t.fe.store = s.fe.store) ∧
    (s.params.tBusy < k → ∃ t, waitBusy ph level cause s = .stop (.outcome (.busTimeout cause)) t)

/-- BUSY at 1 for ever: every command that sends a frame ends BusTimeout(WaitReady); select was never asserted, no byte was
sent, and the front-end is as it was (R141). -/
def Obligations.BusyForEverEndsWaitReady : Prop :=
  ∀ (s : State) (i : Instr), s.fe.kind = .unconstrained → s.resetIn = none → s.fe.inputs.busy = [] → s.fe.busy = true →
    paramError s.params i = none → i ≠ .switchMode →
    ∃ t, exec i s = .next t ∧ t.completion = some ⟨.busTimeout .waitReady, .none⟩ ∧ t.fe = s.fe ∧
      Traffic s t 0 [] [] ∧ BlockAround s t

/-- BUSY never 1 after the bytes: BusTimeout(WaitBusyAssert), with select released, every byte sent once, no further frame, and the
block idle (R138, R141); first in the write frame of a command, then in its read frame. That the bound is `T_BUSY` + 1 samples is
log entry 5. -/
def Obligations.BusyNeverRaisedEndsWaitBusyAssert : Prop :=
  ∀ (s : State) (i : Instr) (more : List Bool), s.fe.kind = .unconstrained → s.resetIn = none →
    paramError s.params i = none → i ≠ .switchMode →
    (s.fe.inputs.busy = List.replicate (s.params.tBusy + 2) false ++ more →
      ∃ t, exec i s = .next t ∧ t.completion = some ⟨.busTimeout .waitBusyAssert, .none⟩ ∧
        Traffic s t 1 (encode i).frame [] ∧ t.xcvr.isIdle = true) ∧
    (1 ≤ (encode i).readLen → s.fe.inputs.busy = false :: true :: List.replicate (s.params.tBusy + 2) false ++ more →
      ∃ t b, exec i s = .next t ∧ t.completion = some ⟨.busTimeout .waitBusyAssert, .none⟩ ∧
        b.length = (encode i).readLen ∧ Traffic s t 2 (encode i).frame b ∧ t.xcvr.isIdle = true)

/-- BUSY never back at 0: BusTimeout(WaitBusyRelease), with every byte sent once, no further frame, and the block idle (R138,
R141); first in the write frame of a command, then in its read frame. That the bound is `T_BUSY` + 1 samples is log entry 5. -/
def Obligations.BusyNeverLoweredEndsWaitBusyRelease : Prop :=
  ∀ (s : State) (i : Instr) (more : List Bool), s.fe.kind = .unconstrained → s.resetIn = none →
    paramError s.params i = none → i ≠ .switchMode →
    (s.fe.inputs.busy = false :: List.replicate (s.params.tBusy + 2) true ++ more →
      ∃ t, exec i s = .next t ∧ t.completion = some ⟨.busTimeout .waitBusyRelease, .none⟩ ∧
        Traffic s t 1 (encode i).frame [] ∧ t.xcvr.isIdle = true) ∧
    (1 ≤ (encode i).readLen →
      s.fe.inputs.busy = false :: true :: false :: List.replicate (s.params.tBusy + 2) true ++ more →
      ∃ t b, exec i s = .next t ∧ t.completion = some ⟨.busTimeout .waitBusyRelease, .none⟩ ∧
        b.length = (encode i).readLen ∧ Traffic s t 2 (encode i).frame b ∧ t.xcvr.isIdle = true)

/-! ## Reset -/

/-- The block after reset: the values R53 gives, and a state that meets the invariant. -/
def Obligations.ResetState : Prop :=
  State.reset.xcvr.bus.sel = false ∧ State.reset.xcvr.rst = false ∧ State.reset.xcvr.bus.phase = .idle ∧
  State.reset.xcvr.bus.idx = 0 ∧ State.reset.xcvr.bus.timer = 0 ∧ State.reset.xcvr.xcBusy = false ∧
  State.reset.xcvr.dc.phase = .idle ∧ State.reset.xcvr.dc.polls = 0 ∧ State.reset.xcvr.pe.stage = .idle ∧
  State.reset.xcvr.pe.polls = 0 ∧ State.reset.Inv

/-- The reset event (R290): an operation it lands in is abandoned without a completion record, the block takes the state after
reset, and the front-end is untouched where no frame was in progress; the same with no operation in progress; and no
operation is abandoned otherwise. The registers R53 leaves unspecified hold the values of log entry 2; where the event lands,
that it is used up, and that an old completion record goes with it are log entry 16. -/
def Obligations.ResetEventAbandons : Prop :=
  (∀ (s : State) (i : Instr), s.resetIn = some 0 → s.xcvr.bus.sel = false → paramError s.params i = none →
    i ≠ .switchMode →
    ∃ t, exec i s = .next t ∧ t.completion = none ∧ t.xcvr = Xcvr.reset ∧ t.fe = s.fe ∧ t.params = s.params) ∧
  (∀ s : State, s.resetIn = some 0 → s.xcvr.bus.sel = false → s.xcvr.xcBusy = false → s.requests = [] →
    ∃ t, step s = .next t ∧ t.xcvr = Xcvr.reset ∧ t.fe = s.fe ∧ t.completion = none) ∧
  (∀ (s t : State) (r : Request) (rest : List Request), s.requests = r :: rest → step s = .next t →
    t.completion = none → t.xcvr = Xcvr.reset ∧ t.resetIn = none)

/-! ## What every step keeps -/

/-- The discipline of the bus (R133, R134, R136, R202, R300): in whatever way the front-end behaves, and wherever a reset event
lands, every event of a step is one the phases allow; in particular select is asserted only when BUSY was just sampled 0,
bytes move only with select asserted, and a read frame sends 0xFF only. -/
def Obligations.StepKeepsBusDiscipline : Prop :=
  ∀ s t : State, s.xcvr.isIdle = true → BusOk s → step s = .next t → BusOk t

/-- The EEPROM keeps its canonical form and stays inside its addresses, the widened registers keep theirs, and the buffers of
the front-end never outgrow their limits (R43, R44, R45). -/
def Obligations.StepKeepsStores : Prop :=
  ∀ s t : State, StoreOk s.fe.store → step s = .next t → StoreOk t.fe.store

/-- The whole invariant: between two operations the block is idle, `RST` is inactive, the parameters stay acceptable, the
buffers of the block hold no more than their frames, and the two invariants above hold (R22, R26, R279). -/
def Obligations.StepKeepsInv : Prop := ∀ s t : State, s.Inv → step s = .next t → t.Inv

/-- No operation changes a parameter or the kind of the front-end, and the operations still to come stay in CLIENT's order
(R10, R24). -/
def Obligations.StepKeepsSetting : Prop :=
  ∀ s t : State, step s = .next t →
    t.params = s.params ∧ t.fe.kind = s.fe.kind ∧ t.requests = s.requests.tail

/-! ## The sequences of CLIENT -/

/-- Activation of a tag with a 4-byte UID delivers those four bytes, in the order received, and the ATQA (R231 to R234, R238); a
set cascade bit with a first byte other than 0x88 is a ProtocolViolation (R235). -/
def Obligations.ActivationOfFourByteTag : Prop :=
  ∀ (s : State) (wake q0 q1 a0 a1 a2 a3 a4 sak : Byte), s.Quiet → s.fe.kind = .reference → s.params.wf = true →
    s.params.usesDefined = true → s.params.commandsOk = true → wake = 0x26 ∨ wake = 0x52 →
    s.fe.store.tag = tag4 wake q0 q1 a0 a1 a2 a3 a4 sak →
    (sak.getLsbD 2 = false → ∃ t, activateTypeA wake s = .next (.ok ⟨[q0, q1], [a0, a1, a2, a3]⟩, t)) ∧
    (sak.getLsbD 2 = true → a0 ≠ 0x88 → ∃ t, activateTypeA wake s = .next (.protocolViolation, t))

/-- Activation of a tag with a 7-byte UID drops the marker 0x88 and joins both levels; a cascade bit still set after level 2 is
a ProtocolViolation (R235, R236, R238). -/
def Obligations.ActivationOfSevenByteTag : Prop :=
  ∀ (s : State) (wake q0 q1 a1 a2 a3 a4 sak1 b0 b1 b2 b3 b4 sak2 : Byte), s.Quiet → s.fe.kind = .reference →
    s.params.wf = true → s.params.usesDefined = true → s.params.commandsOk = true → wake = 0x26 ∨ wake = 0x52 →
    s.fe.store.tag = tag4 wake q0 q1 0x88 a1 a2 a3 a4 sak1 ++
      [⟨some ([0x95, 0x20], 0), [b0, b1, b2, b3, b4], false⟩,
        ⟨some ([0x95, 0x70, b0, b1, b2, b3, b4], 0), [sak2], false⟩] →
    sak1.getLsbD 2 = true →
    (sak2.getLsbD 2 = false →
      ∃ t, activateTypeA wake s = .next (.ok ⟨[q0, q1], [a1, a2, a3, b0, b1, b2, b3]⟩, t)) ∧
    (sak2.getLsbD 2 = true → ∃ t, activateTypeA wake s = .next (.protocolViolation, t))

/-- The walk over the information flags of a Get-System-Info response (R249): for every flags byte the fields it promises are taken
in order, one byte each for DSFID, AFI and IC reference and two for the memory size, with the "+1" rule for size and count,
and no other byte is; bytes left over are dropped, and a response that ends before a promised field, or before the UID ends,
gives nothing (both the model's choice, log entry 21). -/
def Obligations.SystemInfoWalk : Prop :=
  (∀ (f info : Byte) (uid : List Byte) (d a size count ic : Byte) (more : List Byte), uid.length = 8 →
    parseSystemInfo (f :: info :: uid ++ ((if info.getLsbD 0 then [d] else []) ++ (if info.getLsbD 1 then [a] else []) ++
      (if info.getLsbD 2 then [size, count] else []) ++ (if info.getLsbD 3 then [ic] else []) ++ more)) =
      some
        { dsfid := if info.getLsbD 0 then some d else none
          afi := if info.getLsbD 1 then some a else none
          blockSize := if info.getLsbD 2 then some (size.toNat % 32 + 1) else none
          blockCount := if info.getLsbD 2 then some (count.toNat + 1) else none
          icRef := if info.getLsbD 3 then some ic else none }) ∧
  (∀ (f info : Byte) (uid r : List Byte), uid.length = 8 →
    r.length < (if info.getLsbD 0 then 1 else 0) + (if info.getLsbD 1 then 1 else 0) +
      (if info.getLsbD 2 then 2 else 0) + (if info.getLsbD 3 then 1 else 0) →
    parseSystemInfo (f :: info :: uid ++ r) = none) ∧
  (∀ r : List Byte, r.length < 10 → parseSystemInfo r = none)

/-! ## A BusTimeout inside any operation -/

/-- A BusTimeout of one of the three waits ends the operation at once, whatever operation it is, in whichever of its frames, the
engine's included: the last sample of BUSY was in that wait's phase and did not show the level waited for, no frame is opened
and no byte moves after it, there is no result, and the block is idle (R138, R219). -/
def Obligations.BusTimeoutEndsAtOnce : Prop :=
  ∀ (s t : State) (r : Request) (rest : List Request) (cause : BusCause) (result : Result), s.requests = r :: rest →
    step s = .next t → t.completion = some ⟨.busTimeout cause, result⟩ → cause ≠ .irqPoll →
    result = .none ∧ t.xcvr.isIdle = true ∧
    ∃ later level before, t.trace = later ++ .busy level :: (before ++ s.trace) ∧
      (∀ l, Event.busy l ∉ later) ∧ framesOpened later = 0 ∧ bytesSent later = [] ∧ bytesCaptured later = [] ∧
      (cause = .waitReady → level = true ∧ phaseNow (before ++ s.trace) = .waitReady) ∧
      (cause = .waitBusyAssert → level = false ∧ phaseNow (before ++ s.trace) = .waitBusy) ∧
      (cause = .waitBusyRelease → level = true ∧ phaseNow (before ++ s.trace) = .waitDone)
end

