-- ==== Sys2Proof/Laws/State.lean ====
section
/-! SUPPORT. What each named update of the state leaves in each field; true by rfl, so that no proof unfolds an update. -/

namespace Sys2Proof.Machine

/-! ### `State.onBus` -/

@[simp] theorem State.onBus_params (f : BusRegs → BusRegs) (s : State) : (s.onBus f).params = s.params := rfl
@[simp] theorem State.onBus_xcvr (f : BusRegs → BusRegs) (s : State) : (s.onBus f).xcvr = { s.xcvr with bus := f s.xcvr.bus } := rfl
@[simp] theorem State.onBus_fe (f : BusRegs → BusRegs) (s : State) : (s.onBus f).fe = s.fe := rfl
@[simp] theorem State.onBus_requests (f : BusRegs → BusRegs) (s : State) : (s.onBus f).requests = s.requests := rfl
@[simp] theorem State.onBus_completion (f : BusRegs → BusRegs) (s : State) : (s.onBus f).completion = s.completion := rfl
@[simp] theorem State.onBus_resetIn (f : BusRegs → BusRegs) (s : State) : (s.onBus f).resetIn = s.resetIn := rfl
@[simp] theorem State.onBus_trace (f : BusRegs → BusRegs) (s : State) : (s.onBus f).trace = s.trace := rfl
@[simp] theorem State.onBus_refused (f : BusRegs → BusRegs) (s : State) : (s.onBus f).refused = s.refused := rfl

/-! ### `State.onDc` -/

@[simp] theorem State.onDc_params (f : DcRegs → DcRegs) (s : State) : (s.onDc f).params = s.params := rfl
@[simp] theorem State.onDc_xcvr (f : DcRegs → DcRegs) (s : State) : (s.onDc f).xcvr = { s.xcvr with dc := f s.xcvr.dc } := rfl
@[simp] theorem State.onDc_fe (f : DcRegs → DcRegs) (s : State) : (s.onDc f).fe = s.fe := rfl
@[simp] theorem State.onDc_requests (f : DcRegs → DcRegs) (s : State) : (s.onDc f).requests = s.requests := rfl
@[simp] theorem State.onDc_completion (f : DcRegs → DcRegs) (s : State) : (s.onDc f).completion = s.completion := rfl
@[simp] theorem State.onDc_resetIn (f : DcRegs → DcRegs) (s : State) : (s.onDc f).resetIn = s.resetIn := rfl
@[simp] theorem State.onDc_trace (f : DcRegs → DcRegs) (s : State) : (s.onDc f).trace = s.trace := rfl
@[simp] theorem State.onDc_refused (f : DcRegs → DcRegs) (s : State) : (s.onDc f).refused = s.refused := rfl

/-! ### `State.onPe` -/

@[simp] theorem State.onPe_params (f : PeRegs → PeRegs) (s : State) : (s.onPe f).params = s.params := rfl
@[simp] theorem State.onPe_xcvr (f : PeRegs → PeRegs) (s : State) : (s.onPe f).xcvr = { s.xcvr with pe := f s.xcvr.pe } := rfl
@[simp] theorem State.onPe_fe (f : PeRegs → PeRegs) (s : State) : (s.onPe f).fe = s.fe := rfl
@[simp] theorem State.onPe_requests (f : PeRegs → PeRegs) (s : State) : (s.onPe f).requests = s.requests := rfl
@[simp] theorem State.onPe_completion (f : PeRegs → PeRegs) (s : State) : (s.onPe f).completion = s.completion := rfl
@[simp] theorem State.onPe_resetIn (f : PeRegs → PeRegs) (s : State) : (s.onPe f).resetIn = s.resetIn := rfl
@[simp] theorem State.onPe_trace (f : PeRegs → PeRegs) (s : State) : (s.onPe f).trace = s.trace := rfl
@[simp] theorem State.onPe_refused (f : PeRegs → PeRegs) (s : State) : (s.onPe f).refused = s.refused := rfl

/-! ### `State.onFe` -/

@[simp] theorem State.onFe_params (f : FrontEnd → FrontEnd) (s : State) : (s.onFe f).params = s.params := rfl
@[simp] theorem State.onFe_xcvr (f : FrontEnd → FrontEnd) (s : State) : (s.onFe f).xcvr = s.xcvr := rfl
@[simp] theorem State.onFe_fe (f : FrontEnd → FrontEnd) (s : State) : (s.onFe f).fe = f s.fe := rfl
@[simp] theorem State.onFe_requests (f : FrontEnd → FrontEnd) (s : State) : (s.onFe f).requests = s.requests := rfl
@[simp] theorem State.onFe_completion (f : FrontEnd → FrontEnd) (s : State) : (s.onFe f).completion = s.completion := rfl
@[simp] theorem State.onFe_resetIn (f : FrontEnd → FrontEnd) (s : State) : (s.onFe f).resetIn = s.resetIn := rfl
@[simp] theorem State.onFe_trace (f : FrontEnd → FrontEnd) (s : State) : (s.onFe f).trace = s.trace := rfl
@[simp] theorem State.onFe_refused (f : FrontEnd → FrontEnd) (s : State) : (s.onFe f).refused = s.refused := rfl

/-! ### `State.note` -/

@[simp] theorem State.note_params (r : Option Refusal) (s : State) : (s.note r).params = s.params := rfl
@[simp] theorem State.note_xcvr (r : Option Refusal) (s : State) : (s.note r).xcvr = s.xcvr := rfl
@[simp] theorem State.note_fe (r : Option Refusal) (s : State) : (s.note r).fe = s.fe := rfl
@[simp] theorem State.note_requests (r : Option Refusal) (s : State) : (s.note r).requests = s.requests := rfl
@[simp] theorem State.note_completion (r : Option Refusal) (s : State) : (s.note r).completion = s.completion := rfl
@[simp] theorem State.note_resetIn (r : Option Refusal) (s : State) : (s.note r).resetIn = s.resetIn := rfl
@[simp] theorem State.note_trace (r : Option Refusal) (s : State) : (s.note r).trace = s.trace := rfl
/-- No refusal is noted where there is none. -/
@[simp] theorem State.note_none (s : State) : s.note none = s := by
  obtain ⟨p, x, fe, rq, c, ri, rf, tr⟩ := s
  cases rf <;> rfl
/-- The first refusal of an operation stays. -/
theorem State.note_refused (r : Option Refusal) {s : State} (h : s.refused = none) : (s.note r).refused = r := by
  simp [State.note, h]

/-! ### `State.log` -/

@[simp] theorem State.log_params (e : Event) (s : State) : (s.log e).params = s.params := rfl
@[simp] theorem State.log_xcvr (e : Event) (s : State) : (s.log e).xcvr = s.xcvr := rfl
@[simp] theorem State.log_fe (e : Event) (s : State) : (s.log e).fe = s.fe := rfl
@[simp] theorem State.log_requests (e : Event) (s : State) : (s.log e).requests = s.requests := rfl
@[simp] theorem State.log_completion (e : Event) (s : State) : (s.log e).completion = s.completion := rfl
@[simp] theorem State.log_resetIn (e : Event) (s : State) : (s.log e).resetIn = s.resetIn := rfl
@[simp] theorem State.log_trace (e : Event) (s : State) : (s.log e).trace = e :: s.trace := rfl
@[simp] theorem State.log_refused (e : Event) (s : State) : (s.log e).refused = s.refused := rfl

/-! ### `State.enter` -/

@[simp] theorem State.enter_params (p : BtPhase) (s : State) : (s.enter p).params = s.params := rfl
@[simp] theorem State.enter_xcvr (p : BtPhase) (s : State) : (s.enter p).xcvr = { s.xcvr with bus := { s.xcvr.bus with phase := p, timer := 0 } } := rfl
@[simp] theorem State.enter_fe (p : BtPhase) (s : State) : (s.enter p).fe = s.fe := rfl
@[simp] theorem State.enter_requests (p : BtPhase) (s : State) : (s.enter p).requests = s.requests := rfl
@[simp] theorem State.enter_completion (p : BtPhase) (s : State) : (s.enter p).completion = s.completion := rfl
@[simp] theorem State.enter_resetIn (p : BtPhase) (s : State) : (s.enter p).resetIn = s.resetIn := rfl
@[simp] theorem State.enter_trace (p : BtPhase) (s : State) : (s.enter p).trace = .phase p :: s.trace := rfl
@[simp] theorem State.enter_refused (p : BtPhase) (s : State) : (s.enter p).refused = s.refused := rfl

/-! ### `State.stage` -/

@[simp] theorem State.stage_params (p : PeStage) (s : State) : (s.stage p).params = s.params := rfl
@[simp] theorem State.stage_xcvr (p : PeStage) (s : State) : (s.stage p).xcvr = { s.xcvr with pe := { s.xcvr.pe with stage := p } } := rfl
@[simp] theorem State.stage_fe (p : PeStage) (s : State) : (s.stage p).fe = s.fe := rfl
@[simp] theorem State.stage_requests (p : PeStage) (s : State) : (s.stage p).requests = s.requests := rfl
@[simp] theorem State.stage_completion (p : PeStage) (s : State) : (s.stage p).completion = s.completion := rfl
@[simp] theorem State.stage_resetIn (p : PeStage) (s : State) : (s.stage p).resetIn = s.resetIn := rfl
@[simp] theorem State.stage_trace (p : PeStage) (s : State) : (s.stage p).trace = .stage p :: s.trace := rfl
@[simp] theorem State.stage_refused (p : PeStage) (s : State) : (s.stage p).refused = s.refused := rfl

/-! ### `State.accept` -/

@[simp] theorem State.accept_params (s : State) : (s.accept).params = s.params := rfl
@[simp] theorem State.accept_xcvr (s : State) : (s.accept).xcvr = { s.xcvr with xcBusy := true, dc := { s.xcvr.dc with phase := .check } } := rfl
@[simp] theorem State.accept_fe (s : State) : (s.accept).fe = s.fe := rfl
@[simp] theorem State.accept_requests (s : State) : (s.accept).requests = s.requests := rfl
@[simp] theorem State.accept_completion (s : State) : (s.accept).completion = none := rfl
@[simp] theorem State.accept_resetIn (s : State) : (s.accept).resetIn = s.resetIn := rfl
@[simp] theorem State.accept_trace (s : State) : (s.accept).trace = s.trace := rfl
@[simp] theorem State.accept_refused (s : State) : (s.accept).refused = none := rfl

/-! ### `State.complete` -/

@[simp] theorem State.complete_params (c : Completion) (s : State) : (s.complete c).params = s.params := rfl
@[simp] theorem State.complete_xcvr (c : Completion) (s : State) : (s.complete c).xcvr = { s.xcvr with xcBusy := false, bus := { s.xcvr.bus with sel := false, phase := .idle }, dc := { s.xcvr.dc with phase := .idle }, pe := { s.xcvr.pe with stage := .idle } } := rfl
@[simp] theorem State.complete_fe (c : Completion) (s : State) : (s.complete c).fe = s.fe := rfl
@[simp] theorem State.complete_requests (c : Completion) (s : State) : (s.complete c).requests = s.requests := rfl
@[simp] theorem State.complete_completion (c : Completion) (s : State) : (s.complete c).completion = some c := rfl
@[simp] theorem State.complete_resetIn (c : Completion) (s : State) : (s.complete c).resetIn = s.resetIn := rfl
@[simp] theorem State.complete_trace (c : Completion) (s : State) : (s.complete c).trace = s.trace := rfl
@[simp] theorem State.complete_refused (c : Completion) (s : State) : (s.complete c).refused = s.refused := rfl

/-! ### `State.blockReset` -/

@[simp] theorem State.blockReset_params (s : State) : (s.blockReset).params = s.params := rfl
@[simp] theorem State.blockReset_xcvr (s : State) : (s.blockReset).xcvr = Xcvr.reset := rfl
@[simp] theorem State.blockReset_fe (s : State) : (s.blockReset).fe = (if s.xcvr.frameInProgress then s.fe.cutFrame else s.fe) := rfl
@[simp] theorem State.blockReset_requests (s : State) : (s.blockReset).requests = s.requests := rfl
@[simp] theorem State.blockReset_completion (s : State) : (s.blockReset).completion = none := rfl
@[simp] theorem State.blockReset_resetIn (s : State) : (s.blockReset).resetIn = none := rfl
@[simp] theorem State.blockReset_trace (s : State) : (s.blockReset).trace = .reset :: s.trace := rfl
@[simp] theorem State.blockReset_refused (s : State) : (s.blockReset).refused = s.refused := rfl

/-! ### The phases of the direct command interface, which change `dc` alone -/

@[simp] theorem dcBegin_params (i : Instr) (s : State) : (dcBegin i s).params = s.params := rfl
@[simp] theorem dcBegin_fe (i : Instr) (s : State) : (dcBegin i s).fe = s.fe := rfl
@[simp] theorem dcBegin_requests (i : Instr) (s : State) : (dcBegin i s).requests = s.requests := rfl
@[simp] theorem dcBegin_completion (i : Instr) (s : State) : (dcBegin i s).completion = s.completion := rfl
@[simp] theorem dcBegin_resetIn (i : Instr) (s : State) : (dcBegin i s).resetIn = s.resetIn := rfl
@[simp] theorem dcBegin_trace (i : Instr) (s : State) : (dcBegin i s).trace = s.trace := rfl
@[simp] theorem dcBegin_refused (i : Instr) (s : State) : (dcBegin i s).refused = s.refused := rfl
@[simp] theorem dcBegin_rst (i : Instr) (s : State) : (dcBegin i s).xcvr.rst = s.xcvr.rst := rfl
@[simp] theorem dcBegin_xcBusy (i : Instr) (s : State) : (dcBegin i s).xcvr.xcBusy = s.xcvr.xcBusy := rfl
@[simp] theorem dcBegin_bus (i : Instr) (s : State) : (dcBegin i s).xcvr.bus = s.xcvr.bus := rfl
@[simp] theorem dcBegin_irqSnap (i : Instr) (s : State) : (dcBegin i s).xcvr.irqSnap = s.xcvr.irqSnap := rfl
@[simp] theorem dcBegin_pe (i : Instr) (s : State) : (dcBegin i s).xcvr.pe = s.xcvr.pe := rfl

@[simp] theorem dcReadPhase_params (s : State) : (dcReadPhase s).params = s.params := rfl
@[simp] theorem dcReadPhase_fe (s : State) : (dcReadPhase s).fe = s.fe := rfl
@[simp] theorem dcReadPhase_requests (s : State) : (dcReadPhase s).requests = s.requests := rfl
@[simp] theorem dcReadPhase_completion (s : State) : (dcReadPhase s).completion = s.completion := rfl
@[simp] theorem dcReadPhase_resetIn (s : State) : (dcReadPhase s).resetIn = s.resetIn := rfl
@[simp] theorem dcReadPhase_trace (s : State) : (dcReadPhase s).trace = s.trace := rfl
@[simp] theorem dcReadPhase_refused (s : State) : (dcReadPhase s).refused = s.refused := rfl
@[simp] theorem dcReadPhase_rst (s : State) : (dcReadPhase s).xcvr.rst = s.xcvr.rst := rfl
@[simp] theorem dcReadPhase_xcBusy (s : State) : (dcReadPhase s).xcvr.xcBusy = s.xcvr.xcBusy := rfl
@[simp] theorem dcReadPhase_bus (s : State) : (dcReadPhase s).xcvr.bus = s.xcvr.bus := rfl
@[simp] theorem dcReadPhase_irqSnap (s : State) : (dcReadPhase s).xcvr.irqSnap = s.xcvr.irqSnap := rfl
@[simp] theorem dcReadPhase_pe (s : State) : (dcReadPhase s).xcvr.pe = s.xcvr.pe := rfl

@[simp] theorem dcEnter_params (p : DcPhase) (s : State) : (dcEnter p s).params = s.params := rfl
@[simp] theorem dcEnter_fe (p : DcPhase) (s : State) : (dcEnter p s).fe = s.fe := rfl
@[simp] theorem dcEnter_requests (p : DcPhase) (s : State) : (dcEnter p s).requests = s.requests := rfl
@[simp] theorem dcEnter_completion (p : DcPhase) (s : State) : (dcEnter p s).completion = s.completion := rfl
@[simp] theorem dcEnter_resetIn (p : DcPhase) (s : State) : (dcEnter p s).resetIn = s.resetIn := rfl
@[simp] theorem dcEnter_trace (p : DcPhase) (s : State) : (dcEnter p s).trace = s.trace := rfl
@[simp] theorem dcEnter_refused (p : DcPhase) (s : State) : (dcEnter p s).refused = s.refused := rfl
@[simp] theorem dcEnter_rst (p : DcPhase) (s : State) : (dcEnter p s).xcvr.rst = s.xcvr.rst := rfl
@[simp] theorem dcEnter_xcBusy (p : DcPhase) (s : State) : (dcEnter p s).xcvr.xcBusy = s.xcvr.xcBusy := rfl
@[simp] theorem dcEnter_bus (p : DcPhase) (s : State) : (dcEnter p s).xcvr.bus = s.xcvr.bus := rfl
@[simp] theorem dcEnter_irqSnap (p : DcPhase) (s : State) : (dcEnter p s).xcvr.irqSnap = s.xcvr.irqSnap := rfl
@[simp] theorem dcEnter_pe (p : DcPhase) (s : State) : (dcEnter p s).xcvr.pe = s.xcvr.pe := rfl

end Sys2Proof.Machine
end

