-- ==== Sys2Proof/Laws/Run.lean ====
section
/-! SUPPORT. The three ways a bus operation comes out, joined: what going on does, and the rule by which a property is carried
through an operation. -/

namespace Sys2Proof.Machine

@[simp] theorem Run.ok_andThen {α β : Type} (a : α) (s : State) (f : α → State → Run β) :
    (Run.ok a s).andThen f = f a s := rfl

@[simp] theorem Run.stop_andThen {α β : Type} (why : Stop) (s : State) (f : α → State → Run β) :
    (Run.stop why s : Run α).andThen f = .stop why s := rfl

@[simp] theorem Run.map_ok {α β : Type} (a : α) (s : State) (f : α → β) : (Run.ok a s).map f = .ok (f a) s := rfl

@[simp] theorem Run.map_stop {α β : Type} (why : Stop) (s : State) (f : α → β) :
    (Run.stop why s : Run α).map f = .stop why s := rfl

theorem Run.andThen_assoc {α β γ : Type} (r : Run α) (f : α → State → Run β) (g : β → State → Run γ) :
    (r.andThen f).andThen g = r.andThen fun a s => (f a s).andThen g := by
  cases r <;> rfl

theorem Run.map_map {α β γ : Type} (r : Run α) (f : α → β) (g : β → γ) : (r.map f).map g = r.map fun a => g (f a) := by
  cases r <;> rfl

/-- What a run satisfies: `Q` of its value and state if it goes on, `E` of the reason and the state if it stops. -/
def Run.Sat {α : Type} (r : Run α) (Q : α → State → Prop) (E : Stop → State → Prop) : Prop :=
  match r with
  | .ok a s => Q a s
  | .stop why s => E why s

@[simp] theorem Run.sat_ok {α : Type} (a : α) (s : State) (Q : α → State → Prop) (E : Stop → State → Prop) :
    (Run.ok a s).Sat Q E ↔ Q a s := Iff.rfl

@[simp] theorem Run.sat_stop {α : Type} (why : Stop) (s : State) (Q : α → State → Prop) (E : Stop → State → Prop) :
    (Run.stop why s : Run α).Sat Q E ↔ E why s := Iff.rfl

/-- Going on satisfies what the rest satisfies of every value and state the first part may leave. -/
theorem Run.Sat.andThen {α β : Type} {r : Run α} {f : α → State → Run β} {Q : α → State → Prop}
    {R : β → State → Prop} {E : Stop → State → Prop} (h : r.Sat Q E) (hf : ∀ a s, Q a s → (f a s).Sat R E) :
    (r.andThen f).Sat R E := by
  cases r with
  | ok a s => exact hf a s h
  | stop why s => exact h

theorem Run.Sat.map {α β : Type} {r : Run α} {f : α → β} {Q : β → State → Prop} {E : Stop → State → Prop}
    (h : r.Sat (fun a s => Q (f a) s) E) : (r.map f).Sat Q E := by
  cases r <;> exact h

theorem Run.Sat.mono {α : Type} {r : Run α} {Q Q' : α → State → Prop} {E E' : Stop → State → Prop}
    (h : r.Sat Q E) (hQ : ∀ a s, Q a s → Q' a s) (hE : ∀ w s, E w s → E' w s) : r.Sat Q' E' := by
  cases r with
  | ok a s => exact hQ a s h
  | stop why s => exact hE why s h

/-- All that the place of a bus action does: it leaves everything but the reset countdown alone. -/
theorem pulse_sat (s : State) :
    (pulse s).Sat (fun _ t => t = { s with resetIn := t.resetIn }) (fun why t => why = .reset ∧ t = s) := by
  obtain ⟨p, x, fe, rq, c, r, tr⟩ := s
  cases r with
  | none => simp [pulse]
  | some n => cases n <;> simp [pulse]

@[simp] theorem pulse_none {s : State} (h : s.resetIn = none) : pulse s = .ok () s := by
  simp [pulse, h]

end Sys2Proof.Machine
end

