-- ==== Sys2Proof/Laws/Words.lean ====
section
/-! SUPPORT. Byte order and bit order: no bit of a register value or of a byte is lost on the way (R72, R73). -/

namespace Sys2Proof

@[simp] theorem le32_length (v : Word) : (le32 v).length = 4 := rfl

/-- A register value is the one its four bytes carry (R73). -/
@[simp] theorem unle32_le32 (v : Word) : unle32 (le32 v) = v := by
  apply BitVec.eq_of_toNat_eq
  have h := v.isLt
  simp only [unle32, le32, List.foldr, BitVec.extractLsb'_toNat, BitVec.toNat_ofNat, Nat.shiftRight_eq_div_pow]
  omega

/-- Four bytes are those of the register value they carry (R73). -/
theorem le32_unle32 (b0 b1 b2 b3 : Byte) : le32 (unle32 [b0, b1, b2, b3]) = [b0, b1, b2, b3] := by
  have h0 := b0.isLt
  have h1 := b1.isLt
  have h2 := b2.isLt
  have h3 := b3.isLt
  simp only [le32, unle32, List.foldr]
  refine congr (congrArg _ ?_) (congr (congrArg _ ?_) (congr (congrArg _ ?_) (congrArg (· :: []) ?_))) <;>
    apply BitVec.eq_of_toNat_eq <;>
    simp only [BitVec.extractLsb'_toNat, BitVec.toNat_ofNat, Nat.shiftRight_eq_div_pow] <;>
    omega

namespace Machine

/-- A byte crosses the lane unchanged, most significant bit first (R21, R72). -/
@[simp] theorem acrossLane_eq (b : Byte) : acrossLane b = b := by
  revert b
  decide

end Machine

end Sys2Proof
end

