-- ==== Sys2Proof/Laws/Bus.lean ====
section
/-! SUPPORT. What an exchange comes to when the front-end answers: the whole state it leaves, said once. -/

namespace Sys2Proof.Machine

/-! ## The front-end that answers -/

theorem FrontEnd.cooperative_iff (fe : FrontEnd) : fe.cooperative = true ↔ fe.busy = false ∧ fe.plain = true := by
  simp [FrontEnd.cooperative]

theorem FrontEnd.plain_iff (fe : FrontEnd) : fe.plain = true ↔
    fe.kind = .reference ∨ (fe.inputs.busy = [] ∧ fe.inputs.byte = [] ∧ fe.inputs.acts = []) := by
  simp [FrontEnd.plain, and_assoc]

/-- The front-end adds no line level and no byte of its own. -/
def FrontEnd.Still (fe : FrontEnd) : Prop := fe.kind = .reference ∨ (fe.inputs.busy = [] ∧ fe.inputs.byte = [])

theorem FrontEnd.still_of_plain {fe : FrontEnd} (h : fe.plain = true) : fe.Still := by
  rw [FrontEnd.plain_iff] at h
  exact h.imp_right fun h => ⟨h.1, h.2.1⟩

/-- A quiet machine is calm. -/
theorem State.Quiet.calm {s : State} (h : s.Quiet) : s.Calm :=
  have hc := (FrontEnd.cooperative_iff _).1 h.fe
  ⟨hc.1, FrontEnd.still_of_plain hc.2, h.noReset⟩

theorem FrontEnd.busyLevel_still {fe : FrontEnd} (h : fe.Still) : fe.busyLevel = fe.busy := by
  unfold FrontEnd.Still at h
  cases hk : fe.kind <;> simp_all [FrontEnd.busyLevel]

theorem FrontEnd.nextBusy_still {fe : FrontEnd} (h : fe.Still) : fe.nextBusy = fe := by
  obtain ⟨k, st, b, q, f, r, ⟨ib, iy, iq, ia⟩⟩ := fe
  unfold FrontEnd.Still at h
  cases k <;> simp_all [FrontEnd.nextBusy]

/-- What its own action leaves of the front-end's lines, kind and pending levels and bytes. -/
theorem FrontEnd.ownAction_rest (fe : FrontEnd) : fe.ownAction.kind = fe.kind ∧ fe.ownAction.busy = fe.busy ∧
    fe.ownAction.frameIn = fe.frameIn ∧ fe.ownAction.reply = fe.reply ∧
    fe.ownAction.inputs = { fe.inputs with acts := fe.ownAction.inputs.acts } := by
  unfold FrontEnd.ownAction
  split <;> simp [FrontEnd.applyAct]

@[simp] theorem FrontEnd.ownAction_kind (fe : FrontEnd) : fe.ownAction.kind = fe.kind := fe.ownAction_rest.1

/-- An unconstrained front-end's next own action. -/
theorem FrontEnd.ownAction_cons {fe : FrontEnd} {a : FeAct} {rest : List FeAct} (hk : fe.kind = .unconstrained)
    (h : fe.inputs.acts = a :: rest) :
    fe.ownAction = { fe.applyAct a with inputs := { fe.inputs with acts := rest } } := by
  simp [FrontEnd.ownAction, hk, h]

theorem FrontEnd.ownAction_still {fe : FrontEnd} (h : fe.Still) : fe.ownAction.Still := by
  obtain ⟨hk, -, -, -, hi⟩ := fe.ownAction_rest
  unfold FrontEnd.Still at *
  rw [hk, hi]
  exact h

theorem FrontEnd.ownAction_plain {fe : FrontEnd} (h : fe.plain = true) : fe.ownAction = fe := by
  rw [FrontEnd.plain_iff] at h
  cases hk : fe.kind <;> simp_all [FrontEnd.ownAction]

/-- A sample of BUSY is the line where the front-end adds no level of its own. -/
theorem sampleBusy_still {s : State} (h : s.fe.Still) (hr : s.resetIn = none) :
    sampleBusy s = .ok s.fe.busy (s.log (.busy s.fe.busy)) := by
  simp [sampleBusy, hr, FrontEnd.busyLevel_still h, State.onFe, FrontEnd.nextBusy_still h, State.log]

/-- A wait for a level the line already has ends at its first sample. -/
theorem waitBusy_still {s : State} {level : Bool} (p : BtPhase) (cause : BusCause) (h : s.fe.Still)
    (hr : s.resetIn = none) (hb : s.fe.busy = level) :
    waitBusy p level cause s = .ok () ((s.enter p).log (.busy level)) := by
  unfold waitBusy
  cases hT : s.params.tBusy <;>
    simp [waitSamples, sampleBusy_still (s := s.enter p) (by simpa using h) (by simpa using hr), hb]

/-! ## The bytes of a frame -/

/-- A write frame's bytes reach the front-end in order. -/
theorem sendBytes_quiet (bytes : List Byte) : ∀ {s : State}, s.resetIn = none →
    sendBytes bytes s = .ok ()
      { s with
        xcvr := { s.xcvr with bus := { s.xcvr.bus with idx := s.xcvr.bus.idx + bytes.length } }
        fe := { s.fe with frameIn := s.fe.frameIn ++ bytes }
        trace := (bytes.map Event.sent).reverse ++ s.trace } := by
  induction bytes with
  | nil => intro s _; simp [sendBytes]
  | cons b rest ih =>
      intro s hr
      rw [sendBytes]
      simp only [sendByte, pulse_none hr, Run.ok_andThen]
      rw [ih (by simpa using hr)]
      simp [State.onFe, State.onBus, State.log, FrontEnd.takeByte, Nat.add_assoc, Nat.add_comm 1]

/-- A front-end that has prepared a byte does not refuse to put it on the bus. -/
theorem FrontEnd.refusesRead_none {fe : FrontEnd} (h : fe.reply ≠ []) : fe.refusesRead = none := by
  unfold FrontEnd.refusesRead
  split <;> simp_all

/-- A read frame captures the bytes the front-end prepared, in order, when it has prepared so many. -/
theorem captureBytes_quiet (bytes : List Byte) : ∀ {s : State} (more : List Byte), s.resetIn = none →
    s.fe.Still → s.fe.reply = bytes ++ more →
    captureBytes bytes.length s = .ok ()
      { s with
        xcvr := { s.xcvr with
          bus := { s.xcvr.bus with rxf := s.xcvr.bus.rxf ++ bytes, idx := s.xcvr.bus.idx + bytes.length } }
        fe := { s.fe with reply := more }
        trace := (bytes.map (Event.captured 0xFF)).reverse ++ s.trace } := by
  induction bytes with
  | nil =>
      intro s more _ _ h
      simp only [List.nil_append] at h
      subst h
      simp [captureBytes]
  | cons b rest ih =>
      intro s more hr hp h
      have hy := hp
      unfold FrontEnd.Still at hy
      have hb : s.fe.replyByte = b := by
        cases hk : s.fe.kind <;> simp_all [FrontEnd.replyByte]
      have hf : s.fe.refusesRead = none := FrontEnd.refusesRead_none (by simp [h])
      have hn : s.fe.nextReply = { s.fe with reply := rest ++ more } := by
        obtain ⟨p, x, ⟨k, st, bz, q, f, r, ⟨ib, iy, iq, ia⟩⟩, rq, c, rs, rf, tr⟩ := s
        cases k <;> simp_all [FrontEnd.nextReply]
      rw [List.length_cons, captureBytes]
      simp only [captureByte, pulse_none hr, Run.ok_andThen, hb, hf, State.note_none]
      rw [ih more (by simpa using hr) (by simpa [hn, FrontEnd.Still] using hp) (by simp [hn])]
      simp [State.onFe, State.onBus, State.log, hn, Nat.add_assoc, Nat.add_comm 1]

/-! ## What the front-end makes of a frame -/

/-- The front-end after it has processed the write frame of a command: the store has reacted, the answer is prepared, and BUSY
is 0. -/
def FrontEnd.answered (p : Params) (i : Instr) (fe : FrontEnd) : FrontEnd := { fe.react p i with busy := false }

/-- After the frame BUSY is 0, and the front-end still adds no level and no byte. -/
theorem FrontEnd.answered_still (p : Params) (i : Instr) {fe : FrontEnd} (h : fe.Still) :
    (fe.ownAction.answered p i).busy = false ∧ (fe.ownAction.answered p i).Still :=
  ⟨rfl, FrontEnd.ownAction_still h⟩

/-- A front-end that answers goes on answering. -/
theorem FrontEnd.answered_cooperative (p : Params) (i : Instr) {fe : FrontEnd} (h : fe.plain = true) :
    (fe.answered p i).cooperative = true := by
  rw [FrontEnd.plain_iff] at h
  rw [FrontEnd.cooperative_iff, FrontEnd.plain_iff]
  exact ⟨rfl, h⟩

/-- A front-end refuses a frame exactly when it refuses the command it decodes to. -/
theorem FrontEnd.refusesFrame_eq (p : Params) {i : Instr} {n : Nat} {fe : FrontEnd}
    (hd : decode ⟨fe.frameIn, n⟩ = .ok i) : fe.refusesFrame p n = fe.refusesCommand p i := by
  unfold FrontEnd.refusesFrame FrontEnd.refusesCommand
  cases hk : fe.kind <;> simp [hd]

/-- What the front-end makes of a frame does not rest on its BUSY line or on the bytes it had before. -/
theorem FrontEnd.answered_ownAction (p : Params) (i : Instr) (fe : FrontEnd) (b : Bool) (taken prepared : List Byte) :
    ({ fe with busy := b, frameIn := taken, reply := prepared } : FrontEnd).ownAction.answered p i =
      fe.ownAction.answered p i := by
  obtain ⟨k, st, bz, q, f, r, ⟨ib, iy, iq, ia⟩⟩ := fe
  cases k <;> cases ia <;> rfl

/-- The frame a command decodes to, processed by a front-end that does not refuse the command: its own action comes first. -/
theorem FrontEnd.processFrame_answered (p : Params) {i : Instr} {n : Nat} {fe : FrontEnd}
    (hd : decode ⟨fe.frameIn, n⟩ = .ok i) (hf : fe.refusesCommand p i = none) :
    (fe.processFrame p n).lowerBusy = fe.ownAction.answered p i := by
  simp only [FrontEnd.processFrame, FrontEnd.refusesFrame_eq p hd, hf, hd, FrontEnd.lowerBusy, FrontEnd.answered,
    Option.isSome_none, Bool.false_eq_true, if_false]

/-! ## The exchanges -/

/-- The events of steps 4 to 6 of a frame, the newest first. -/
def finishEvents : List Event :=
  [.busy false, .phase .waitDone, .settle, .select false, .phase .settleD, .busy true, .phase .waitBusy]

/-- The events of step 2 of a frame, the newest first. -/
def selectEvents : List Event := [.phase .xfer, .settle, .select true, .phase .settleA]

/-- The events of a write frame with its step 1, the newest first, up to the last sample of BUSY. -/
def writeEvents (bytes : List Byte) : List Event :=
  finishEvents ++ ((bytes.map Event.sent).reverse ++ (selectEvents ++ [.busy false, .phase .waitReady]))

/-- The events of a read frame, the newest first, up to the last sample of BUSY. -/
def readEvents (bytes : List Byte) : List Event :=
  finishEvents ++ ((bytes.map (Event.captured 0xFF)).reverse ++ selectEvents)

/-- Steps 4 to 6 of a write frame when the front-end adds no level and no byte. -/
theorem finishFrame_wr_calm {s : State} {i : Instr} {n : Nat} (h : s.fe.Still) (hr : s.resetIn = none)
    (hd : decode ⟨s.fe.frameIn, n⟩ = .ok i) (hf : s.fe.refusesCommand s.params i = none) :
    finishFrame .wr n s = .ok ()
      { s with
        xcvr := { s.xcvr with bus := { s.xcvr.bus with sel := false, phase := .waitDone, timer := 0 } }
        fe := s.fe.ownAction.answered s.params i
        trace := finishEvents ++ s.trace } := by
  have h1 : (s.onFe FrontEnd.raiseBusy).fe.Still := h
  have hp : (s.fe.raiseBusy.processFrame s.params n).lowerBusy = s.fe.ownAction.answered s.params i :=
    (FrontEnd.processFrame_answered s.params (fe := s.fe.raiseBusy) hd hf).trans
      (FrontEnd.answered_ownAction s.params i s.fe true s.fe.frameIn s.fe.reply)
  have hn : s.fe.raiseBusy.refusesFrame s.params n = none :=
    (FrontEnd.refusesFrame_eq s.params (fe := s.fe.raiseBusy) hd).trans hf
  have hc := FrontEnd.answered_still s.params i h
  simp only [finishFrame]
  rw [waitBusy_still (level := true) _ _ h1 (by simpa using hr) rfl]
  simp only [Run.ok_andThen, releaseSelect, settle]
  rw [pulse_none (by simpa using hr)]
  simp only [Run.ok_andThen, State.log_fe, State.enter_fe, State.onFe_fe, State.log_params, State.enter_params, State.onFe_params, hn,
    State.note_none]
  rw [pulse_none (by simpa using hr)]
  simp only [Run.ok_andThen]
  rw [waitBusy_still (level := false) _ _ (by simpa [hp] using hc.2) (by simpa using hr) (by simpa [hp] using hc.1)]
  simp [State.onFe, State.onBus, State.log, State.enter, hp, finishEvents]

/-- Steps 4 to 6 of a read frame when the front-end adds no level and no byte. -/
theorem finishFrame_rd_calm {s : State} {n : Nat} (h : s.fe.Still) (hr : s.resetIn = none) :
    finishFrame .rd n s = .ok ()
      { s with
        xcvr := { s.xcvr with bus := { s.xcvr.bus with sel := false, phase := .waitDone, timer := 0 } }
        fe := { s.fe with reply := [], busy := false }
        trace := finishEvents ++ s.trace } := by
  have h1 : (s.onFe FrontEnd.raiseBusy).fe.Still := h
  simp only [finishFrame]
  rw [waitBusy_still (level := true) _ _ h1 (by simpa using hr) rfl]
  simp only [Run.ok_andThen, releaseSelect, settle]
  rw [pulse_none (by simpa using hr)]
  simp only [Run.ok_andThen]
  rw [pulse_none (by simpa using hr)]
  simp only [Run.ok_andThen]
  rw [waitBusy_still (level := false) _ _ (by exact h)
    (by simpa using hr) rfl]
  simp [State.onFe, State.onBus, State.log, State.enter, FrontEnd.lowerBusy, FrontEnd.raiseBusy, finishEvents]

/-- Step 1 when the front-end adds no level and no byte. -/
theorem startExchange_calm {s : State} (send : List Byte) (h : s.Calm) :
    startExchange send s = .ok ()
      { s with
        xcvr := { s.xcvr with
          bus := { s.xcvr.bus with txf := send, txfLen := send.length, phase := .waitReady, timer := 0 } }
        trace := .busy false :: .phase .waitReady :: s.trace } := by
  have hc := And.intro h.busy h.lines
  simp only [startExchange]
  rw [waitBusy_still (level := false) _ _ (by exact hc.2) (by simpa using h.noReset) (by simpa using hc.1)]
  simp [State.onBus, State.log, State.enter]

/-- Steps 2 to 6 of a write frame when the front-end adds no level and no byte. -/
theorem writeFrame_calm {s : State} {i : Instr} {bytes : List Byte} {n : Nat} (h : s.fe.Still)
    (hr : s.resetIn = none) (hd : decode ⟨bytes, n⟩ = .ok i) (hf : s.fe.refusesCommand s.params i = none) :
    writeFrame bytes n s = .ok ()
      { s with
        xcvr := { s.xcvr with
          bus := { s.xcvr.bus with
            sel := false, phase := .waitDone, dir := .wr, idx := bytes.length, timer := 0 } }
        fe := s.fe.ownAction.answered s.params i
        trace := finishEvents ++ ((bytes.map Event.sent).reverse ++ (selectEvents ++ s.trace)) } := by
  simp only [writeFrame, assertSelect, settle]
  rw [pulse_none (by simpa using hr)]
  simp only [Run.ok_andThen]
  rw [pulse_none (by simpa using hr)]
  simp only [Run.ok_andThen]
  rw [sendBytes_quiet bytes (by simpa using hr)]
  simp only [Run.ok_andThen]
  rw [finishFrame_wr_calm (i := i) (by exact h) (by simpa using hr)
    (by simpa [FrontEnd.openFrame] using hd) (by exact hf)]
  have he := FrontEnd.answered_ownAction s.params i s.fe s.fe.busy bytes []
  simp [State.onFe, State.onBus, State.log, State.enter, FrontEnd.openFrame, selectEvents, he]

/-- Steps 2 to 6 of a read frame when the front-end adds no level and no byte and has prepared so many bytes. -/
theorem readFrame_calm {s : State} {bytes : List Byte} (h : s.fe.Still) (hr : s.resetIn = none)
    (hy : s.fe.reply = bytes) :
    readFrame bytes.length s = .ok ()
      { s with
        xcvr := { (dcReadPhase s).xcvr with
          bus := { s.xcvr.bus with
            sel := false, phase := .waitDone, dir := .rd, idx := bytes.length, timer := 0, rxf := bytes,
            rxfLen := bytes.length } }
        fe := { s.fe with reply := [], busy := false }
        trace := finishEvents ++ ((bytes.map (Event.captured 0xFF)).reverse ++ (selectEvents ++ s.trace)) } := by
  simp only [readFrame, assertSelect, settle]
  rw [pulse_none (by simpa using hr)]
  simp only [Run.ok_andThen]
  rw [pulse_none (by simpa using hr)]
  simp only [Run.ok_andThen]
  rw [captureBytes_quiet bytes [] (by simpa using hr) (by exact h) (by simpa using hy)]
  simp only [Run.ok_andThen]
  rw [finishFrame_rd_calm (by exact h) (by simpa using hr)]
  simp [State.onBus, State.log, State.enter, dcReadPhase, State.onDc, selectEvents]

/-- `Exchange(send)` when the front-end adds no level and no byte: the whole state it leaves (R131). -/
theorem exchange_calm {s : State} {i : Instr} {bytes : List Byte} (h : s.Calm) (hd : decode ⟨bytes, 0⟩ = .ok i)
    (hf : s.fe.refusesCommand s.params i = none) :
    exchange bytes s = .ok ()
      { s with
        xcvr := { s.xcvr with
          bus := { s.xcvr.bus with
            sel := false, phase := .idle, dir := .wr, idx := bytes.length, timer := 0, txf := bytes,
            txfLen := bytes.length } }
        fe := s.fe.ownAction.answered s.params i
        trace := .phase .idle :: (writeEvents bytes ++ s.trace) } := by
  have hc := And.intro h.busy h.lines
  simp only [exchange]
  rw [startExchange_calm bytes h]
  simp only [Run.ok_andThen]
  rw [writeFrame_calm (i := i) (by exact hc.2) (by simpa using h.noReset) hd (by exact hf)]
  simp [State.enter, State.onBus, State.log, writeEvents]

/-- `Exchange(send, n)` when the front-end adds no level and no byte and prepares so many bytes: the bytes, and the whole state it leaves
(R132). -/
theorem exchangeRead_calm {s : State} {i : Instr} {send bytes : List Byte} (h : s.Calm)
    (hd : decode ⟨send, bytes.length⟩ = .ok i) (hf : s.fe.refusesCommand s.params i = none)
    (hy : s.fe.ownAction.store.answer s.params s.fe.kind i = bytes) :
    exchangeRead send bytes.length s = .ok bytes
      { s with
        xcvr := { (dcReadPhase s).xcvr with
          bus := { s.xcvr.bus with
            sel := false, phase := .idle, dir := .rd, idx := bytes.length, timer := 0, txf := send,
            txfLen := send.length, rxf := bytes, rxfLen := bytes.length } }
        fe := { s.fe.ownAction.answered s.params i with reply := [] }
        trace := .phase .idle :: (readEvents bytes ++ (writeEvents send ++ s.trace)) } := by
  have hc := And.intro h.busy h.lines
  have ha := FrontEnd.answered_still s.params i (fe := s.fe) h.lines
  simp only [exchangeRead]
  rw [startExchange_calm send h]
  simp only [Run.ok_andThen]
  rw [writeFrame_calm (i := i) (by exact hc.2) (by simpa using h.noReset) hd (by exact hf)]
  simp only [Run.ok_andThen]
  rw [readFrame_calm (bytes := bytes) (by exact ha.2) (by simpa using h.noReset)
    (by simpa [FrontEnd.answered, FrontEnd.react] using hy)]
  simp [State.enter, State.onBus, State.log, writeEvents, readEvents, dcReadPhase, State.onDc, FrontEnd.answered]

end Sys2Proof.Machine
end

