-- ==== Sys2Proof/Laws/Operands.lean ====
section
/-! SUPPORT. The operand checks as plain inequalities, and the reading of each encoding as one call of its layout's decoder. -/

namespace Sys2Proof

/-! ## Well-formedness -/

theorem Instr.wf_writeEEPROM (addr : Nat) (data : List Byte) : (Instr.writeEEPROM addr data).wf = true ↔
    addr ≤ 255 ∧ 1 ≤ data.length ∧ data.length ≤ 254 := by
  simp only [Instr.wf, Bool.and_eq_true, decide_eq_true_eq, and_assoc]

theorem Instr.wf_readEEPROM (addr n : Nat) : (Instr.readEEPROM addr n).wf = true ↔ addr ≤ 255 ∧ 1 ≤ n ∧ n ≤ 254 := by
  simp only [Instr.wf, Bool.and_eq_true, decide_eq_true_eq, and_assoc]

theorem Instr.wf_sendData (bytes : List Byte) (validBits : Nat) : (Instr.sendData bytes validBits).wf = true ↔
    1 ≤ bytes.length ∧ bytes.length ≤ 260 ∧ validBits ≤ 7 := by
  simp only [Instr.wf, Bool.and_eq_true, decide_eq_true_eq, and_assoc]

theorem Instr.wf_readData (n : Nat) : (Instr.readData n).wf = true ↔ 1 ≤ n ∧ n ≤ 508 := by
  simp only [Instr.wf, Bool.and_eq_true, decide_eq_true_eq]

/-! ## The layouts -/

theorem decode_06 (addr : Byte) (data : List Byte) (n : Nat) :
    decode ⟨0x06 :: addr :: data, n⟩ = decodeWriteEEPROM 0x06 (addr :: data) n := rfl

theorem decode_07 (addr length : Byte) (n : Nat) :
    decode ⟨[0x07, addr, length], n⟩ = decodeReadEEPROM 0x07 [addr, length] n := rfl

theorem decode_09 (validBits : Byte) (payload : List Byte) (n : Nat) :
    decode ⟨0x09 :: validBits :: payload, n⟩ = decodeSendData 0x09 (validBits :: payload) n := rfl

namespace Machine

/-! ## The checks of the block -/

theorem eepromInRange_iff (addr n : Nat) : eepromInRange addr n = true ↔ addr ≤ 254 ∧ addr + n ≤ 254 ∧ 1 ≤ n := by
  simp only [eepromInRange, Bool.and_eq_true, decide_eq_true_eq, and_assoc]

theorem sendLengthOk_iff (n : Nat) : sendLengthOk n = true ↔ 1 ≤ n ∧ n ≤ 260 := by
  simp only [sendLengthOk, Bool.and_eq_true, decide_eq_true_eq]

theorem validBitsOk_iff (n : Nat) : validBitsOk n = true ↔ n ≤ 7 := by
  simp only [validBitsOk, decide_eq_true_eq]

theorem readLengthOk_iff (n : Nat) : readLengthOk n = true ↔ 1 ≤ n ∧ n ≤ 508 := by
  simp only [readLengthOk, Bool.and_eq_true, decide_eq_true_eq]

theorem registerError_none (p : Params) (addr : Byte) :
    registerError p addr = none ↔ registerDefined p addr = true := by
  cases h : registerDefined p addr <;> simp [registerError, h]

theorem eepromError_none (addr n : Nat) : eepromError addr n = none ↔ eepromInRange addr n = true := by
  cases h : eepromInRange addr n <;> simp [eepromError, h]

theorem sendError_none (n validBits : Nat) :
    sendError n validBits = none ↔ sendLengthOk n = true ∧ validBitsOk validBits = true := by
  cases h : sendLengthOk n <;> cases h' : validBitsOk validBits <;> simp [sendError, h, h']

theorem readError_none (n : Nat) : readError n = none ↔ readLengthOk n = true := by
  cases h : readLengthOk n <;> simp [readError, h]

end Machine

end Sys2Proof
end

