-- ==== Sys2Proof/Laws/Command.lean ====
section
/-! SUPPORT. What one direct command comes to when the front-end answers: its traffic, its end, and the front-end's reaction, said
once for all commands. -/

namespace Sys2Proof.Machine

/-! ## Traffic -/

theorem framesOpened_append (a b : List Event) : framesOpened (a ++ b) = framesOpened a + framesOpened b := by
  simp [framesOpened]

theorem bytesSent_append (a b : List Event) : bytesSent (a ++ b) = bytesSent b ++ bytesSent a := by
  simp [bytesSent, List.filterMap_append]

theorem bytesCaptured_append (a b : List Event) : bytesCaptured (a ++ b) = bytesCaptured b ++ bytesCaptured a := by
  simp [bytesCaptured, List.filterMap_append]

theorem framesOpened_sent (l : List Byte) : framesOpened (l.map Event.sent).reverse = 0 := by
  simp [framesOpened, List.countP_eq_zero]

theorem framesOpened_captured (l : List Byte) : framesOpened (l.map (Event.captured 0xFF)).reverse = 0 := by
  simp [framesOpened, List.countP_eq_zero]

theorem bytesSent_sent (l : List Byte) : bytesSent (l.map Event.sent).reverse = l := by
  simp [bytesSent, List.filterMap_map]

theorem bytesSent_captured (l : List Byte) : bytesSent (l.map (Event.captured 0xFF)).reverse = [] := by
  simp [bytesSent, List.filterMap_map]

theorem bytesCaptured_sent (l : List Byte) : bytesCaptured (l.map Event.sent).reverse = [] := by
  simp [bytesCaptured, List.filterMap_map]

theorem bytesCaptured_captured (l : List Byte) : bytesCaptured (l.map (Event.captured 0xFF)).reverse = l := by
  simp [bytesCaptured, List.filterMap_map]

/-- The events of an exchange of a write frame, the newest first. -/
def exchangeEvents (out : List Byte) : List Event := .phase .idle :: writeEvents out

/-- The events of an exchange of a write frame and a read frame, the newest first. -/
def exchangeReadEvents (out inp : List Byte) : List Event := .phase .idle :: (readEvents inp ++ writeEvents out)

theorem framesOpened_exchange (out : List Byte) : framesOpened (exchangeEvents out) = 1 := by
  have h : exchangeEvents out = ([.phase .idle] ++ finishEvents) ++ ((out.map Event.sent).reverse ++
      (selectEvents ++ [.busy false, .phase .waitReady])) := by simp [exchangeEvents, writeEvents]
  rw [h, framesOpened_append, framesOpened_append _ (_ ++ _), framesOpened_sent]
  decide

theorem bytesSent_exchange (out : List Byte) : bytesSent (exchangeEvents out) = out := by
  have h : exchangeEvents out = ([.phase .idle] ++ finishEvents) ++ ((out.map Event.sent).reverse ++
      (selectEvents ++ [.busy false, .phase .waitReady])) := by simp [exchangeEvents, writeEvents]
  have e1 : bytesSent ([.phase .idle] ++ finishEvents) = [] := by decide
  have e2 : bytesSent (selectEvents ++ [.busy false, .phase .waitReady]) = [] := by decide
  rw [h, bytesSent_append, bytesSent_append _ (_ ++ _), bytesSent_sent, e1, e2]
  simp

theorem bytesCaptured_exchange (out : List Byte) : bytesCaptured (exchangeEvents out) = [] := by
  have h : exchangeEvents out = ([.phase .idle] ++ finishEvents) ++ ((out.map Event.sent).reverse ++
      (selectEvents ++ [.busy false, .phase .waitReady])) := by simp [exchangeEvents, writeEvents]
  have e1 : bytesCaptured ([.phase .idle] ++ finishEvents) = [] := by decide
  have e2 : bytesCaptured (selectEvents ++ [.busy false, .phase .waitReady]) = [] := by decide
  rw [h, bytesCaptured_append, bytesCaptured_append _ (_ ++ _), bytesCaptured_sent, e1, e2]
  simp

/-- An exchange with a read frame is the events of the read frame over those of an exchange without one. -/
theorem exchangeReadEvents_eq (out inp : List Byte) : ∃ old, exchangeEvents out = .phase .idle :: old ∧
    exchangeReadEvents out inp =
      ([.phase .idle] ++ finishEvents) ++ ((inp.map (Event.captured 0xFF)).reverse ++ (selectEvents ++ old)) :=
  ⟨writeEvents out, rfl, by simp [exchangeReadEvents, readEvents]⟩

theorem framesOpened_exchangeRead (out inp : List Byte) : framesOpened (exchangeReadEvents out inp) = 2 := by
  obtain ⟨old, h, e⟩ := exchangeReadEvents_eq out inp
  have h1 := framesOpened_exchange out
  rw [h] at h1
  have h2 : framesOpened old = 1 := by simpa [framesOpened] using h1
  have e1 : framesOpened ([.phase .idle] ++ finishEvents) = 0 := by decide
  have e2 : framesOpened selectEvents = 1 := by decide
  rw [e, framesOpened_append, framesOpened_append _ (_ ++ _), framesOpened_captured, framesOpened_append selectEvents,
    h2, e1, e2]

theorem bytesSent_exchangeRead (out inp : List Byte) : bytesSent (exchangeReadEvents out inp) = out := by
  obtain ⟨old, h, e⟩ := exchangeReadEvents_eq out inp
  have h1 := bytesSent_exchange out
  rw [h, ← List.singleton_append, bytesSent_append] at h1
  have h2 : bytesSent old = out := by simpa [bytesSent] using h1
  have e1 : bytesSent ([.phase .idle] ++ finishEvents) = [] := by decide
  have e2 : bytesSent selectEvents = [] := by decide
  rw [e, bytesSent_append, bytesSent_append _ (_ ++ _), bytesSent_captured, bytesSent_append, h2, e1, e2]
  simp

theorem bytesCaptured_exchangeRead (out inp : List Byte) : bytesCaptured (exchangeReadEvents out inp) = inp := by
  obtain ⟨old, h, e⟩ := exchangeReadEvents_eq out inp
  have h1 := bytesCaptured_exchange out
  rw [h, ← List.singleton_append, bytesCaptured_append] at h1
  have h2 : bytesCaptured old = [] := by simpa [bytesCaptured] using h1
  have e1 : bytesCaptured ([.phase .idle] ++ finishEvents) = [] := by decide
  have e2 : bytesCaptured selectEvents = [] := by decide
  rw [e, bytesCaptured_append, bytesCaptured_append _ (_ ++ _), bytesCaptured_captured, bytesCaptured_append, h2, e1, e2]
  simp

/-! ## One command as a piece of an operation -/

/-- The state a command without a result leaves. -/
def commandSent (i : Instr) (s : State) : State :=
  { dcBegin i s with
    xcvr := { (dcBegin i s).xcvr with
      bus := { s.xcvr.bus with
        sel := false, phase := .idle, dir := .wr, idx := (encode i).frame.length, timer := 0
        txf := (encode i).frame, txfLen := (encode i).frame.length } }
    fe := s.fe.answered s.params i
    trace := exchangeEvents (encode i).frame ++ s.trace }

/-- The state a command with a result leaves. -/
def commandQueried (i : Instr) (b : List Byte) (s : State) : State :=
  { dcBegin i s with
    xcvr := { (dcReadPhase (dcBegin i s)).xcvr with
      bus := { s.xcvr.bus with
        sel := false, phase := .idle, dir := .rd, idx := b.length, timer := 0, txf := (encode i).frame
        txfLen := (encode i).frame.length, rxf := b, rxfLen := b.length } }
    fe := { s.fe.answered s.params i with reply := [] }
    trace := exchangeReadEvents (encode i).frame b ++ s.trace }

/-- A quiet front-end takes no action of its own. -/
theorem State.Quiet.ownAction {s : State} (h : s.Quiet) : s.onFe FrontEnd.ownAction = s := by
  have hp := FrontEnd.ownAction_plain ((FrontEnd.cooperative_iff _).1 h.fe).2
  simp [State.onFe, hp]

/-- The front-end takes the frame of every command that passes the block's check, but for those of `refusedByReference`, which
FE_REF refuses (R66). -/
theorem FrontEnd.refusesCommand_none {p : Params} {i : Instr} {fe : FrontEnd} (hp : paramError p i = none)
    (h : fe.kind = .reference → refusedByReference fe.store i = none) : fe.refusesCommand p i = none := by
  unfold FrontEnd.refusesCommand
  cases hk : fe.kind with
  | unconstrained => rfl
  | reference => simpa [hp] using h hk

/-- A command without a result, whole, when the front-end adds no level and no byte: its own action comes first. -/
theorem sendCommand_calm {s : State} {i : Instr} (h : s.Calm) (hp : paramError s.params i = none)
    (hf : s.fe.kind = .reference → refusedByReference s.fe.store i = none) (hd : decode (encode i) = .ok i) (hn : (encode i).readLen = 0) :
    sendCommand i s = .ok () (commandSent i (s.onFe FrontEnd.ownAction)) := by
  have hd' : decode ⟨(encode i).frame, 0⟩ = .ok i := by rw [← hn]; exact hd
  simp only [sendCommand, checkOperands, hp, Run.ok_andThen]
  rw [exchange_calm (i := i) (s := dcBegin i s) ⟨h.busy, h.lines, h.noReset⟩ hd'
    (FrontEnd.refusesCommand_none hp hf)]
  simp [commandSent, exchangeEvents, dcBegin, State.onDc, State.onFe]

/-- A command without a result, whole, when the front-end answers. -/
theorem sendCommand_quiet {s : State} {i : Instr} (h : s.Quiet) (hp : paramError s.params i = none)
    (hf : s.fe.kind = .reference → refusedByReference s.fe.store i = none) (hd : decode (encode i) = .ok i) (hn : (encode i).readLen = 0) :
    sendCommand i s = .ok () (commandSent i s) := by
  rw [sendCommand_calm h.calm hp hf hd hn, h.ownAction]

/-- A command with a result, whole, when the front-end adds no level and no byte: its own action comes first, and the bytes are
those it then prepared. -/
theorem queryCommand_calm {s : State} {i : Instr} {b : List Byte} (h : s.Calm) (hp : paramError s.params i = none)
    (hf : s.fe.kind = .reference → refusedByReference s.fe.store i = none) (hd : decode (encode i) = .ok i)
    (hb : s.fe.ownAction.store.answer s.params s.fe.kind i = b) (hn : (encode i).readLen = b.length) :
    queryCommand i s = .ok b (commandQueried i b (s.onFe FrontEnd.ownAction)) := by
  have hd' : decode ⟨(encode i).frame, b.length⟩ = .ok i := by rw [← hn]; exact hd
  simp only [queryCommand, checkOperands, hp, Run.ok_andThen, hn]
  rw [exchangeRead_calm (i := i) (s := dcBegin i s) ⟨h.busy, h.lines, h.noReset⟩ hd'
    (FrontEnd.refusesCommand_none hp hf) hb]
  simp [commandQueried, exchangeReadEvents, dcBegin, dcReadPhase, State.onDc, State.onFe]

/-- A command with a result, whole, when the front-end answers: the bytes are those it prepared. -/
theorem queryCommand_quiet {s : State} {i : Instr} {b : List Byte} (h : s.Quiet) (hp : paramError s.params i = none)
    (hf : s.fe.kind = .reference → refusedByReference s.fe.store i = none) (hd : decode (encode i) = .ok i)
    (hb : s.fe.store.answer s.params s.fe.kind i = b) (hn : (encode i).readLen = b.length) :
    queryCommand i s = .ok b (commandQueried i b s) := by
  have ha : s.fe.ownAction = s.fe := congrArg State.fe h.ownAction
  rw [queryCommand_calm h.calm hp hf hd (by rw [ha]; exact hb) hn, h.ownAction]

@[simp] theorem commandSent_params (i : Instr) (s : State) : (commandSent i s).params = s.params := rfl
@[simp] theorem commandSent_fe (i : Instr) (s : State) : (commandSent i s).fe = s.fe.answered s.params i := rfl
@[simp] theorem commandSent_requests (i : Instr) (s : State) : (commandSent i s).requests = s.requests := rfl
@[simp] theorem commandSent_resetIn (i : Instr) (s : State) : (commandSent i s).resetIn = s.resetIn := rfl
@[simp] theorem commandSent_completion (i : Instr) (s : State) : (commandSent i s).completion = s.completion := rfl
@[simp] theorem commandSent_refused (i : Instr) (s : State) : (commandSent i s).refused = s.refused := rfl
@[simp] theorem commandSent_trace (i : Instr) (s : State) :
    (commandSent i s).trace = exchangeEvents (encode i).frame ++ s.trace := rfl
@[simp] theorem commandSent_pe (i : Instr) (s : State) : (commandSent i s).xcvr.pe = s.xcvr.pe := rfl
@[simp] theorem commandSent_irqSnap (i : Instr) (s : State) : (commandSent i s).xcvr.irqSnap = s.xcvr.irqSnap := rfl
@[simp] theorem commandSent_rst (i : Instr) (s : State) : (commandSent i s).xcvr.rst = s.xcvr.rst := rfl
@[simp] theorem commandQueried_params (i : Instr) (b : List Byte) (s : State) :
    (commandQueried i b s).params = s.params := rfl
@[simp] theorem commandQueried_fe (i : Instr) (b : List Byte) (s : State) :
    (commandQueried i b s).fe = { s.fe.answered s.params i with reply := [] } := rfl
@[simp] theorem commandQueried_requests (i : Instr) (b : List Byte) (s : State) :
    (commandQueried i b s).requests = s.requests := rfl
@[simp] theorem commandQueried_resetIn (i : Instr) (b : List Byte) (s : State) :
    (commandQueried i b s).resetIn = s.resetIn := rfl
@[simp] theorem commandQueried_completion (i : Instr) (b : List Byte) (s : State) :
    (commandQueried i b s).completion = s.completion := rfl
@[simp] theorem commandQueried_refused (i : Instr) (b : List Byte) (s : State) :
    (commandQueried i b s).refused = s.refused := rfl
@[simp] theorem commandQueried_trace (i : Instr) (b : List Byte) (s : State) :
    (commandQueried i b s).trace = exchangeReadEvents (encode i).frame b ++ s.trace := rfl
@[simp] theorem commandQueried_pe (i : Instr) (b : List Byte) (s : State) :
    (commandQueried i b s).xcvr.pe = s.xcvr.pe := rfl
@[simp] theorem commandQueried_irqSnap (i : Instr) (b : List Byte) (s : State) :
    (commandQueried i b s).xcvr.irqSnap = s.xcvr.irqSnap := rfl
@[simp] theorem commandQueried_rst (i : Instr) (b : List Byte) (s : State) :
    (commandQueried i b s).xcvr.rst = s.xcvr.rst := rfl

/-- The machine is still quiet after a command. -/
theorem commandSent_quiet {s : State} (i : Instr) (h : s.Quiet) : (commandSent i s).Quiet :=
  ⟨FrontEnd.answered_cooperative _ _ ((FrontEnd.cooperative_iff _).1 h.fe).2, h.noReset⟩

theorem commandQueried_quiet {s : State} (i : Instr) (b : List Byte) (h : s.Quiet) : (commandQueried i b s).Quiet :=
  ⟨FrontEnd.answered_cooperative s.params i ((FrontEnd.cooperative_iff _).1 h.fe).2, h.noReset⟩

/-- The machine is still calm after a command. -/
theorem commandSent_calm {s : State} (i : Instr) (h : s.Calm) : (commandSent i (s.onFe FrontEnd.ownAction)).Calm :=
  have ha := FrontEnd.answered_still s.params i (fe := s.fe) h.lines
  ⟨ha.1, ha.2, h.noReset⟩

theorem commandQueried_calm {s : State} (i : Instr) (b : List Byte) (h : s.Calm) :
    (commandQueried i b (s.onFe FrontEnd.ownAction)).Calm :=
  have ha := FrontEnd.answered_still s.params i (fe := s.fe) h.lines
  ⟨ha.1, ha.2, h.noReset⟩

/-! ## The commands that other operations are built of -/

/-- ReadRegister as a part of an operation, when the front-end answers: the register's value. -/
theorem readRegister_quiet {s : State} (addr : Byte) (h : s.Quiet) (hd : registerDefined s.params addr = true)
    (hf : s.fe.kind = .reference → addr ≠ 0x03) :
    readRegister addr s =
      .ok (s.reg addr) (commandQueried (.readRegister addr) (le32 (s.reg addr)) s) := by
  unfold readRegister
  rw [queryCommand_quiet (i := .readRegister addr) (b := le32 (s.reg addr)) h ((registerError_none _ _).2 hd)
    (fun hk => if_neg (hf hk)) rfl rfl rfl]
  simp

/-- GetIrqStatus as a part of an operation, when the front-end answers. -/
theorem getIrqStatus_quiet {s : State} (h : s.Quiet) (hd : registerDefined s.params 0x02 = true) :
    getIrqStatus s = .ok (s.reg 0x02)
      { commandQueried (.readRegister 0x02) (le32 (s.reg 0x02)) s with
        xcvr := { (commandQueried (.readRegister 0x02) (le32 (s.reg 0x02)) s).xcvr with irqSnap := s.reg 0x02 } } := by
  unfold getIrqStatus
  rw [readRegister_quiet 0x02 h hd fun _ => by decide]
  rfl

/-- GetTransceiveState as a part of an operation, when the front-end answers. -/
theorem getTransceiveState_quiet {s : State} (h : s.Quiet) (hd : registerDefined s.params 0x1D = true) :
    getTransceiveState s = .ok (tsField s.params.tsShift (s.reg 0x1D))
      (commandQueried (.readRegister 0x1D) (le32 (s.reg 0x1D)) s) := by
  unfold getTransceiveState
  rw [readRegister_quiet 0x1D h hd fun _ => by decide]
  rfl

/-- A register write that passes its check, as a part of an operation. -/
theorem sendWriteRegister_quiet {s : State} (addr : Byte) (v : Word) (h : s.Quiet)
    (hd : registerDefined s.params addr = true) (hf : s.fe.kind = .reference → isStatusReg addr = false) :
    sendCommand (.writeRegister addr v) s = .ok () (commandSent (.writeRegister addr v) s) := by
  refine sendCommand_quiet h ((registerError_none _ _).2 hd)
    (fun hk => by simp [refusedByReference, hf hk]) ?_ rfl
  show Except.ok (Instr.writeRegister addr (unle32 (le32 v))) = _
  rw [unle32_le32]

theorem sendOrMask_quiet {s : State} (addr : Byte) (m : Word) (h : s.Quiet)
    (hd : registerDefined s.params addr = true) (hf : s.fe.kind = .reference → isPlainReg addr = true) :
    sendCommand (.writeRegisterOrMask addr m) s = .ok () (commandSent (.writeRegisterOrMask addr m) s) := by
  refine sendCommand_quiet h ((registerError_none _ _).2 hd)
    (fun hk => if_pos (hf hk)) ?_ rfl
  show Except.ok (Instr.writeRegisterOrMask addr (unle32 (le32 m))) = _
  rw [unle32_le32]

theorem sendAndMask_quiet {s : State} (addr : Byte) (m : Word) (h : s.Quiet)
    (hd : registerDefined s.params addr = true) (hf : s.fe.kind = .reference → isPlainReg addr = true) :
    sendCommand (.writeRegisterAndMask addr m) s = .ok () (commandSent (.writeRegisterAndMask addr m) s) := by
  refine sendCommand_quiet h ((registerError_none _ _).2 hd)
    (fun hk => if_pos (hf hk)) ?_ rfl
  show Except.ok (Instr.writeRegisterAndMask addr (unle32 (le32 m))) = _
  rw [unle32_le32]

/-! ## A direct command of the client port -/

/-- An operation that FE_REF has not refused answers the state it leaves. -/
theorem answer_next {kind : FeKind} {t : State} (h : t.refused = none) : answer kind t = .next t := by
  cases kind with
  | unconstrained => rfl
  | reference => simp [answer, h]

/-- With a front-end that is not FE_REF an operation always runs to a next state. -/
theorem performOperation_next {s : State} (body : State → Run Completion) (hk : s.fe.kind = .unconstrained) :
    ∃ t, performOperation body s = .next t := by
  simp only [performOperation, hk]
  exact ⟨_, rfl⟩

/-- An operation that delivers a completion record of its own, and that FE_REF has not refused. -/
theorem performOperation_ok {s t : State} {body : State → Run Completion} {c : Completion}
    (h : body s.accept = .ok c t) (hr : t.refused = none) : performOperation body s = .next (t.complete c) := by
  rw [performOperation, h]
  exact answer_next hr

/-- The same of ProtocolTransact. -/
theorem opProtocolTransact_ok {s t : State} {p : ProtocolRequest} {c : Completion} (h : engine p s.accept = .ok c t)
    (hr : t.refused = none) : opProtocolTransact p s = .next (t.complete c) := by
  rw [opProtocolTransact, h]
  exact answer_next hr

/-- FE_REF's named error is what the operation answers (R66). -/
theorem answer_refused {t : State} {r : Refusal} (h : t.refused = some r) : answer .reference t = .refused r := by
  simp [answer, h]

/-- A direct command without a result, from the port: it completes Ok, its frame went over the bus, and the front-end has
reacted to it and to nothing else. -/
theorem performOperation_send {s : State} {i : Instr} (h : s.Quiet) (hp : paramError s.params i = none)
    (hf : s.fe.kind = .reference → refusedByReference s.fe.store i = none) (hd : decode (encode i) = .ok i) (hn : (encode i).readLen = 0) :
    ∃ t, performOperation (fun s => (sendCommand i s).map fun _ => Completion.done) s = .next t ∧
      DirectDone s t .none 1 (encode i).frame [] ∧ t.fe = s.fe.answered s.params i := by
  have hq : s.accept.Quiet := ⟨h.fe, h.noReset⟩
  refine ⟨finishRun (.ok Completion.done (commandSent i s.accept)), ?_, ?_, rfl⟩
  · simp only [performOperation]
    rw [sendCommand_quiet hq hp hf hd hn]
    exact answer_next rfl
  · exact
      { completion := rfl
        traffic := ⟨exchangeEvents (encode i).frame, rfl, framesOpened_exchange _, bytesSent_exchange _,
          bytesCaptured_exchange _⟩
        around := ⟨rfl, rfl, rfl, rfl, rfl, rfl, rfl⟩
        latches := ⟨rfl, rfl⟩
        requests := rfl }

/-- A direct command with a result, from the port. -/
theorem performOperation_query {s : State} {i : Instr} {b : List Byte} {r : List Byte → Result} (h : s.Quiet)
    (hp : paramError s.params i = none) (hf : s.fe.kind = .reference → refusedByReference s.fe.store i = none) (hd : decode (encode i) = .ok i)
    (hb : s.fe.store.answer s.params s.fe.kind i = b) (hn : (encode i).readLen = b.length) :
    ∃ t, performOperation (fun s => (queryCommand i s).map fun b => ⟨.ok, r b⟩) s = .next t ∧
      DirectDone s t (r b) 2 (encode i).frame b ∧ t.fe = { s.fe.answered s.params i with reply := [] } := by
  have hq : s.accept.Quiet := ⟨h.fe, h.noReset⟩
  refine ⟨finishRun (.ok ⟨.ok, r b⟩ (commandQueried i b s.accept)), ?_, ?_, rfl⟩
  · simp only [performOperation]
    rw [queryCommand_quiet hq hp hf hd hb hn]
    exact answer_next rfl
  · exact
      { completion := rfl
        traffic := ⟨exchangeReadEvents (encode i).frame b, rfl, framesOpened_exchangeRead _ _,
          bytesSent_exchangeRead _ _, bytesCaptured_exchangeRead _ _⟩
        around := ⟨rfl, rfl, rfl, rfl, rfl, rfl, rfl⟩
        latches := ⟨rfl, rfl⟩
        requests := rfl }

/-- A command that fails its operand check sends no frame. -/
theorem sendCommand_rejected {s : State} {i : Instr} {k : ParamKind} (hp : paramError s.params i = some k) :
    sendCommand i s = .stop (.outcome (.paramError k)) s := by
  simp [sendCommand, checkOperands, hp]

theorem queryCommand_rejected {s : State} {i : Instr} {k : ParamKind} (hp : paramError s.params i = some k) :
    queryCommand i s = .stop (.outcome (.paramError k)) s := by
  simp [queryCommand, checkOperands, hp]

/-- A direct command that fails its operand check ends before any exchange, whatever front-end is attached. -/
theorem performOperation_rejected {s : State} {k : ParamKind} {body : State → Run Completion}
    (hb : body s.accept = .stop (.outcome (.paramError k)) s.accept) :
    ∃ t, performOperation body s = .next t ∧ Rejected s t (.paramError k) := by
  refine ⟨finishRun (.stop (.outcome (.paramError k)) s.accept), ?_, ?_⟩
  · simp only [performOperation, hb]
    exact answer_next rfl
  · exact
      { completion := rfl, trace := rfl, fe := rfl, latches := ⟨rfl, rfl⟩, requests := rfl
        around := ⟨rfl, rfl, rfl, rfl, rfl, rfl, rfl⟩ }

theorem performOperation_send_rejected {s : State} {i : Instr} {k : ParamKind} {f : Unit → Completion}
    (hp : paramError s.params i = some k) :
    ∃ t, performOperation (fun s => (sendCommand i s).map f) s = .next t ∧ Rejected s t (.paramError k) :=
  performOperation_rejected (by rw [sendCommand_rejected (s := s.accept) hp, Run.map_stop])

theorem performOperation_query_rejected {s : State} {i : Instr} {k : ParamKind} {f : List Byte → Completion}
    (hp : paramError s.params i = some k) :
    ∃ t, performOperation (fun s => (queryCommand i s).map f) s = .next t ∧ Rejected s t (.paramError k) :=
  performOperation_rejected (by rw [queryCommand_rejected (s := s.accept) hp, Run.map_stop])

end Sys2Proof.Machine
end

