-- ==== Sys2Proof/Laws/Chain.lean ====
section
/-! SUPPORT. Composite operations as chains of commands: what has happened since a state, when the front-end answers, carried from
one command to the next. -/

namespace Sys2Proof.Machine

/-- Traffic goes on: what came before, and then these events. -/
theorem Traffic.append {s t u : State} {n m : Nat} {o o' i i' : List Byte} {ev : List Event} (h : Traffic s t n o i)
    (hu : u.trace = ev ++ t.trace) (hf : framesOpened ev = m) (hs : bytesSent ev = o') (hc : bytesCaptured ev = i') :
    Traffic s u (n + m) (o ++ o') (i ++ i') := by
  obtain ⟨new, h1, h2, h3, h4⟩ := h
  exact ⟨ev ++ new, by rw [hu, h1, List.append_assoc], by rw [framesOpened_append, hf, h2, Nat.add_comm],
    by rw [bytesSent_append, hs, h3], by rw [bytesCaptured_append, hc, h4]⟩

/-- From `s` to `t` inside one operation, with a front-end that answers: so many frames with these bytes, the front-end's store
is now `f`, and everything around is as it was. -/
structure Chain (s t : State) (frames : Nat) (out inp : List Byte) (f : FeStore) : Prop where
  quiet : t.Quiet
  store : t.fe.store = f
  params : t.params = s.params
  kind : t.fe.kind = s.fe.kind
  irq : t.fe.irq = s.fe.irq
  inputs : t.fe.inputs = s.fe.inputs
  resetIn : t.resetIn = s.resetIn
  requests : t.requests = s.requests
  rst : t.xcvr.rst = s.xcvr.rst
  refused : t.refused = none
  traffic : Traffic s t frames out inp

/-- The start of a chain: the operation has just been accepted. -/
theorem Chain.start {s : State} (h : s.Quiet) : Chain s s.accept 0 [] [] s.fe.store :=
  { quiet := ⟨h.fe, h.noReset⟩, store := rfl, params := rfl, kind := rfl, irq := rfl, inputs := rfl, resetIn := rfl
    requests := rfl, rst := rfl, refused := rfl, traffic := ⟨[], rfl, rfl, rfl, rfl⟩ }

/-- A change of the engine's registers is no event. -/
theorem Chain.onPe {s t : State} {n : Nat} {o r : List Byte} {f : FeStore} (h : Chain s t n o r f) (g : PeRegs → PeRegs) :
    Chain s (t.onPe g) n o r f :=
  { quiet := ⟨h.quiet.fe, h.quiet.noReset⟩, store := h.store, params := h.params, kind := h.kind, irq := h.irq
    inputs := h.inputs, resetIn := h.resetIn, requests := h.requests, rst := h.rst, refused := h.refused, traffic := h.traffic }

/-- A change of the command interface's registers is no event. -/
theorem Chain.onDc {s t : State} {n : Nat} {o r : List Byte} {f : FeStore} (h : Chain s t n o r f) (g : DcRegs → DcRegs) :
    Chain s (t.onDc g) n o r f :=
  { quiet := ⟨h.quiet.fe, h.quiet.noReset⟩, store := h.store, params := h.params, kind := h.kind, irq := h.irq
    inputs := h.inputs, resetIn := h.resetIn, requests := h.requests, rst := h.rst, refused := h.refused, traffic := h.traffic }

/-- A change of stage opens no frame. -/
theorem Chain.stage {s t : State} {n : Nat} {o r : List Byte} {f : FeStore} (h : Chain s t n o r f) (p : PeStage) :
    Chain s (t.stage p) n o r f :=
  { quiet := ⟨h.quiet.fe, h.quiet.noReset⟩, store := h.store, params := h.params, kind := h.kind, irq := h.irq
    inputs := h.inputs, resetIn := h.resetIn, requests := h.requests, rst := h.rst, refused := h.refused
    traffic := by
      simpa using h.traffic.append (u := t.stage p) (ev := [.stage p]) rfl (m := 0) rfl (o' := []) rfl (i' := []) rfl }

/-- One command without a result: one frame, and the store reacts. -/
theorem Chain.sent {s t : State} {n : Nat} {o r : List Byte} {f : FeStore} (h : Chain s t n o r f) (i : Instr) :
    Chain s (commandSent i t) (n + 1) (o ++ (encode i).frame) r (f.react s.params s.fe.kind i) :=
  { quiet := commandSent_quiet i h.quiet
    store := by
      show t.fe.store.react t.params t.fe.kind i = _
      rw [h.store, h.params, h.kind]
    params := h.params, kind := h.kind, irq := h.irq, inputs := h.inputs, resetIn := h.resetIn, requests := h.requests
    rst := h.rst, refused := h.refused
    traffic := by
      simpa using h.traffic.append (commandSent_trace i t) (framesOpened_exchange _) (bytesSent_exchange _)
        (bytesCaptured_exchange _) }

/-- One command with a result: two frames, and the store reacts. -/
theorem Chain.queried {s t : State} {n : Nat} {o r : List Byte} {f : FeStore} (h : Chain s t n o r f) (i : Instr) (b : List Byte) :
    Chain s (commandQueried i b t) (n + 2) (o ++ (encode i).frame) (r ++ b) (f.react s.params s.fe.kind i) :=
  { quiet := commandQueried_quiet i b h.quiet
    store := by
      show t.fe.store.react t.params t.fe.kind i = _
      rw [h.store, h.params, h.kind]
    params := h.params, kind := h.kind, irq := h.irq, inputs := h.inputs, resetIn := h.resetIn, requests := h.requests
    rst := h.rst, refused := h.refused
    traffic :=
      h.traffic.append (commandQueried_trace i b t) (framesOpened_exchangeRead _ _) (bytesSent_exchangeRead _ _)
        (bytesCaptured_exchangeRead _ _) }

/-- A read of a register that is not IRQ_CLEAR leaves the store as it is. -/
theorem Chain.read {s t : State} {n : Nat} {o r : List Byte} {f : FeStore} (h : Chain s t n o r f) {addr : Byte} (ha : addr ≠ 0x03)
    (b : List Byte) : Chain s (commandQueried (.readRegister addr) b t) (n + 2) (o ++ [0x04, addr]) (r ++ b) f := by
  have := h.queried (.readRegister addr) b
  rwa [show f.react s.params s.fe.kind (.readRegister addr) = f from if_neg ha] at this

/-- The value a register read of a chain returns. -/
theorem Chain.reg {s t : State} {n : Nat} {o r : List Byte} {f : FeStore} (h : Chain s t n o r f) (a : Byte) :
    t.reg a = f.regRead s.params s.fe.kind a := by
  simp only [State.reg, h.store, h.params, h.kind]

/-- The end of a chain, in a completion record: what is around the operation. -/
theorem Chain.done {s t : State} {n : Nat} {o r : List Byte} {f : FeStore} (h : Chain s t n o r f) (c : Completion) :
    BlockAround s (t.complete c) ∧ (t.complete c).fe.store = f ∧ (t.complete c).requests = s.requests ∧
    (t.complete c).completion = some c ∧ (t.complete c).refused = none ∧
    Traffic s (t.complete c) n o r :=
  ⟨⟨rfl, h.rst, h.params, h.resetIn, h.kind, h.irq, h.inputs⟩, h.store, h.requests, rfl, h.refused, h.traffic⟩

/-! ## A front-end with actions of its own -/

/-- An action that does nothing leaves the front-end as it is. -/
@[simp] theorem FrontEnd.applyAct_nothing (fe : FrontEnd) : fe.applyAct FeAct.nothing = fe := by
  simp [FrontEnd.applyAct, FeAct.nothing, FeAct.flags, FeAct.fieldAfter]

/-- As `Chain`, for an unconstrained front-end with own actions in its input, of which `acts` are still to come. -/
structure CalmChain (s t : State) (frames : Nat) (out inp : List Byte) (acts : List FeAct) (f : FeStore) : Prop where
  calm : t.Calm
  store : t.fe.store = f
  params : t.params = s.params
  kind : t.fe.kind = .unconstrained
  inputs : t.fe.inputs = { s.fe.inputs with acts := acts }
  requests : t.requests = s.requests
  refused : t.refused = none
  traffic : Traffic s t frames out inp

/-- The start of such a chain: the operation has just been accepted. -/
theorem CalmChain.start {s : State} (h : s.Calm) (hk : s.fe.kind = .unconstrained) :
    CalmChain s s.accept 0 [] [] s.fe.inputs.acts s.fe.store :=
  { calm := ⟨h.busy, h.lines, h.noReset⟩, store := rfl, params := rfl, kind := hk, inputs := rfl, requests := rfl
    refused := rfl, traffic := ⟨[], rfl, rfl, rfl, rfl⟩ }

section

variable {s t : State} {n : Nat} {o r : List Byte} {acts : List FeAct} {f : FeStore}

/-- A change of the engine's registers is no event. -/
theorem CalmChain.onPe (h : CalmChain s t n o r acts f) (g : PeRegs → PeRegs) : CalmChain s (t.onPe g) n o r acts f :=
  { calm := ⟨h.calm.busy, h.calm.lines, h.calm.noReset⟩, store := h.store, params := h.params, kind := h.kind
    inputs := h.inputs, requests := h.requests, refused := h.refused, traffic := h.traffic }

/-- A change of the command interface's registers is no event. -/
theorem CalmChain.onDc (h : CalmChain s t n o r acts f) (g : DcRegs → DcRegs) : CalmChain s (t.onDc g) n o r acts f :=
  { calm := ⟨h.calm.busy, h.calm.lines, h.calm.noReset⟩, store := h.store, params := h.params, kind := h.kind
    inputs := h.inputs, requests := h.requests, refused := h.refused, traffic := h.traffic }

/-- A change of stage opens no frame. -/
theorem CalmChain.stage (h : CalmChain s t n o r acts f) (p : PeStage) : CalmChain s (t.stage p) n o r acts f :=
  { calm := ⟨h.calm.busy, h.calm.lines, h.calm.noReset⟩, store := h.store, params := h.params, kind := h.kind
    inputs := h.inputs, requests := h.requests, refused := h.refused
    traffic := by
      simpa using h.traffic.append (u := t.stage p) (ev := [.stage p]) rfl (m := 0) rfl (o' := []) rfl (i' := []) rfl }

/-- The next own action, where one is left, as one command's frame is processed. -/
theorem CalmChain.acted {a : FeAct} (h : CalmChain s t n o r (a :: acts) f) :
    (t.onFe FrontEnd.ownAction).fe = { t.fe.applyAct a with inputs := { s.fe.inputs with acts := acts } } := by
  show t.fe.ownAction = _
  rw [FrontEnd.ownAction_cons h.kind (by rw [h.inputs]), h.inputs]

/-- One command without a result, with an own action before it. -/
theorem CalmChain.sent {a : FeAct} (h : CalmChain s t n o r (a :: acts) f) (i : Instr) :
    CalmChain s (commandSent i (t.onFe FrontEnd.ownAction)) (n + 1) (o ++ (encode i).frame) r acts
      ((t.fe.applyAct a).store.react s.params .unconstrained i) :=
  { calm := commandSent_calm i h.calm
    store := by
      rw [commandSent_fe, h.acted, ← h.params, ← h.kind]
      rfl
    params := h.params
    kind := by
      rw [commandSent_fe, h.acted]
      exact h.kind
    inputs := by rw [commandSent_fe, h.acted]; rfl
    requests := h.requests, refused := h.refused
    traffic := by
      simpa using h.traffic.append (commandSent_trace i (t.onFe FrontEnd.ownAction)) (framesOpened_exchange _)
        (bytesSent_exchange _) (bytesCaptured_exchange _) }

/-- One command with a result, with an own action before it. -/
theorem CalmChain.queried {a : FeAct} (h : CalmChain s t n o r (a :: acts) f) (i : Instr) (b : List Byte) :
    CalmChain s (commandQueried i b (t.onFe FrontEnd.ownAction)) (n + 2) (o ++ (encode i).frame) (r ++ b) acts
      ((t.fe.applyAct a).store.react s.params .unconstrained i) :=
  { calm := commandQueried_calm i b h.calm
    store := by
      rw [commandQueried_fe, h.acted, ← h.params, ← h.kind]
      rfl
    params := h.params
    kind := by
      rw [commandQueried_fe, h.acted]
      exact h.kind
    inputs := by rw [commandQueried_fe, h.acted]; rfl
    requests := h.requests, refused := h.refused
    traffic :=
      h.traffic.append (commandQueried_trace i b _) (framesOpened_exchangeRead _ _) (bytesSent_exchangeRead _ _)
        (bytesCaptured_exchangeRead _ _) }

/-- With no own action left the front-end answers, and such a chain goes on as any other. -/
theorem CalmChain.quiet (h : CalmChain s t n o r [] f) : t.Quiet :=
  { fe := by
      have hl := h.calm.lines.resolve_left fun e => by rw [h.kind] at e; cases e
      have ha : t.fe.inputs.acts = [] := by rw [h.inputs]
      simp [FrontEnd.cooperative, FrontEnd.plain, h.calm.busy, hl, ha]
    noReset := h.calm.noReset }

/-- One command without a result, with no own action left. -/
theorem CalmChain.sent_last (h : CalmChain s t n o r [] f) (i : Instr) :
    CalmChain s (commandSent i t) (n + 1) (o ++ (encode i).frame) r [] (f.react s.params .unconstrained i) :=
  { calm := (commandSent_quiet i h.quiet).calm
    store := by
      show t.fe.store.react t.params t.fe.kind i = _
      rw [h.store, h.params, h.kind]
    params := h.params, kind := h.kind, inputs := h.inputs, requests := h.requests, refused := h.refused
    traffic := by
      simpa using h.traffic.append (commandSent_trace i t) (framesOpened_exchange _) (bytesSent_exchange _)
        (bytesCaptured_exchange _) }

/-- One command with a result, with no own action left. -/
theorem CalmChain.queried_last (h : CalmChain s t n o r [] f) (i : Instr) (b : List Byte) :
    CalmChain s (commandQueried i b t) (n + 2) (o ++ (encode i).frame) (r ++ b) []
      (f.react s.params .unconstrained i) :=
  { calm := (commandQueried_quiet i b h.quiet).calm
    store := by
      show t.fe.store.react t.params t.fe.kind i = _
      rw [h.store, h.params, h.kind]
    params := h.params, kind := h.kind, inputs := h.inputs, requests := h.requests, refused := h.refused
    traffic :=
      h.traffic.append (commandQueried_trace i b t) (framesOpened_exchangeRead _ _) (bytesSent_exchangeRead _ _)
        (bytesCaptured_exchangeRead _ _) }

/-- The next own action of a list that the input may end before (`State.ActsAs`), as one command's frame is processed. -/
theorem CalmChain.sent_as {a : FeAct} {m : Nat} {l : List FeAct} (h : CalmChain s t n o r acts f)
    (hl : acts ++ List.replicate m FeAct.nothing = a :: l) (i : Instr) :
    ∃ acts' m', acts' ++ List.replicate m' FeAct.nothing = l ∧
      CalmChain s (commandSent i (t.onFe FrontEnd.ownAction)) (n + 1) (o ++ (encode i).frame) r acts'
        ((t.fe.applyAct a).store.react s.params .unconstrained i) := by
  cases acts with
  | cons b acts =>
    obtain ⟨rfl, hrest⟩ := List.cons.inj hl
    exact ⟨acts, m, hrest, h.sent i⟩
  | nil =>
    cases m with
    | zero => cases hl
    | succ m =>
      obtain ⟨rfl, hrest⟩ := List.cons.inj hl
      refine ⟨[], m, hrest, ?_⟩
      rw [h.quiet.ownAction, FrontEnd.applyAct_nothing, h.store]
      exact h.sent_last i

/-- The same for a command with a result. -/
theorem CalmChain.queried_as {a : FeAct} {m : Nat} {l : List FeAct} (h : CalmChain s t n o r acts f)
    (hl : acts ++ List.replicate m FeAct.nothing = a :: l) (i : Instr) (b : List Byte) :
    ∃ acts' m', acts' ++ List.replicate m' FeAct.nothing = l ∧
      CalmChain s (commandQueried i b (t.onFe FrontEnd.ownAction)) (n + 2) (o ++ (encode i).frame) (r ++ b) acts'
        ((t.fe.applyAct a).store.react s.params .unconstrained i) := by
  cases acts with
  | cons b' acts =>
    obtain ⟨rfl, hrest⟩ := List.cons.inj hl
    exact ⟨acts, m, hrest, h.queried i b⟩
  | nil =>
    cases m with
    | zero => cases hl
    | succ m =>
      obtain ⟨rfl, hrest⟩ := List.cons.inj hl
      refine ⟨[], m, hrest, ?_⟩
      rw [h.quiet.ownAction, FrontEnd.applyAct_nothing, h.store]
      exact h.queried_last i b

/-- With no own action left such a chain is a `Chain`, from the start with the inputs as they then are. -/
theorem CalmChain.toChain (h : CalmChain s t n o r [] f) :
    ∃ s₀, Chain s₀ t n o r f ∧ s₀.trace = s.trace ∧ s₀.params = s.params ∧ s₀.requests = s.requests ∧
      s₀.fe.kind = .unconstrained :=
  ⟨{ s with
      xcvr := { s.xcvr with rst := t.xcvr.rst }
      fe := { s.fe with kind := .unconstrained, irq := t.fe.irq, inputs := { s.fe.inputs with acts := [] } }
      resetIn := t.resetIn },
    { quiet := h.quiet, store := h.store, params := h.params, kind := h.kind, irq := rfl, inputs := h.inputs
      resetIn := rfl, requests := h.requests, rst := rfl, refused := h.refused, traffic := h.traffic },
    rfl, rfl, rfl, rfl⟩

end

end Sys2Proof.Machine
end

