-- ==== Sys2Proof/Laws/PerInstr.lean ====
section
/-! SUPPORT. Statements made command by command: the family Opcode (byte 0 of the frame is the command's opcode, and one of the
twelve of R101) and the family Direct (the kind of direct command of the client port; SwitchMode is the one without, R23). -/

namespace Sys2Proof.Laws.Opcode

/-- Byte 0 of the encoding is the opcode, and the opcode is in the closed map (R100, R101). -/
def Statement (i : Instr) : Prop :=
  (encode i).frame.head? = some i.opcode ∧
    i.opcode ∈ [0x00, 0x01, 0x02, 0x04, 0x06, 0x07, 0x09, 0x0A, 0x0B, 0x11, 0x16, 0x17]

theorem writeRegister (addr : Byte) (value : Word) : Statement (.writeRegister addr value) := ⟨rfl, by simp [Instr.opcode]⟩
theorem writeRegisterOrMask (addr : Byte) (mask : Word) : Statement (.writeRegisterOrMask addr mask) :=
  ⟨rfl, by simp [Instr.opcode]⟩
theorem writeRegisterAndMask (addr : Byte) (mask : Word) : Statement (.writeRegisterAndMask addr mask) :=
  ⟨rfl, by simp [Instr.opcode]⟩
theorem readRegister (addr : Byte) : Statement (.readRegister addr) := ⟨rfl, by simp [Instr.opcode]⟩
theorem writeEEPROM (addr : Nat) (data : List Byte) : Statement (.writeEEPROM addr data) := ⟨rfl, by simp [Instr.opcode]⟩
theorem readEEPROM (addr : Nat) (length : Nat) : Statement (.readEEPROM addr length) := ⟨rfl, by simp [Instr.opcode]⟩
theorem sendData (bytes : List Byte) (validBits : Nat) : Statement (.sendData bytes validBits) :=
  ⟨rfl, by simp [Instr.opcode]⟩
theorem readData (length : Nat) : Statement (.readData length) := ⟨rfl, by simp [Instr.opcode]⟩
theorem switchMode : Statement .switchMode := ⟨rfl, by simp [Instr.opcode]⟩
theorem loadRFConfig (tx : Byte) (rx : Byte) : Statement (.loadRFConfig tx rx) := ⟨rfl, by simp [Instr.opcode]⟩
theorem rfOn : Statement .rfOn := ⟨rfl, by simp [Instr.opcode]⟩
theorem rfOff : Statement .rfOff := ⟨rfl, by simp [Instr.opcode]⟩

end Sys2Proof.Laws.Opcode

namespace Sys2Proof.Laws.Direct

/-- A command has a kind at the client port exactly when it is not SwitchMode (R23, R186). -/
def Statement (i : Instr) : Prop := Machine.directKind i = none ↔ i = .switchMode

theorem writeRegister (addr : Byte) (value : Word) : Statement (.writeRegister addr value) := by
  simp [Statement, Machine.directKind]
theorem writeRegisterOrMask (addr : Byte) (mask : Word) : Statement (.writeRegisterOrMask addr mask) := by
  simp [Statement, Machine.directKind]
theorem writeRegisterAndMask (addr : Byte) (mask : Word) : Statement (.writeRegisterAndMask addr mask) := by
  simp [Statement, Machine.directKind]
theorem readRegister (addr : Byte) : Statement (.readRegister addr) := by simp [Statement, Machine.directKind]
theorem writeEEPROM (addr : Nat) (data : List Byte) : Statement (.writeEEPROM addr data) := by
  simp [Statement, Machine.directKind]
theorem readEEPROM (addr : Nat) (length : Nat) : Statement (.readEEPROM addr length) := by
  simp [Statement, Machine.directKind]
theorem sendData (bytes : List Byte) (validBits : Nat) : Statement (.sendData bytes validBits) := by
  simp [Statement, Machine.directKind]
theorem readData (length : Nat) : Statement (.readData length) := by simp [Statement, Machine.directKind]
theorem switchMode : Statement .switchMode := by simp [Statement, Machine.directKind]
theorem loadRFConfig (tx : Byte) (rx : Byte) : Statement (.loadRFConfig tx rx) := by simp [Statement, Machine.directKind]
theorem rfOn : Statement .rfOn := by simp [Statement, Machine.directKind]
theorem rfOff : Statement .rfOff := by simp [Statement, Machine.directKind]

end Sys2Proof.Laws.Direct
end

