-- ==== Sys2Proof/Laws/Refused.lean ====
section
/-! SUPPORT. The named error of FE_REF, once noted, stays: whatever the rest of the operation does, the operation is refused
(R66). -/

namespace Sys2Proof.Machine

/-- However a piece of an operation comes out, the named error noted is still there. -/
abbrev Run.StaysRefused {α : Type} (r : Refusal) (m : Run α) : Prop :=
  m.Sat (fun _ t => t.refused = some r) (fun _ t => t.refused = some r)

variable {r : Refusal} {s : State}

theorem State.note_some (q : Option Refusal) (h : s.refused = some r) : (s.note q).refused = some r := by
  simp [State.note, h]

theorem pulse_staysRefused (h : s.refused = some r) : (pulse s).StaysRefused r := by
  refine (pulse_sat s).mono (fun _ t e => ?_) fun _ t e => ?_
  · rw [e]
    exact h
  · rw [e.2]
    exact h

theorem settle_staysRefused (h : s.refused = some r) : (settle s).StaysRefused r :=
  (pulse_staysRefused h).andThen fun _ _ h => h

theorem sampleBusy_staysRefused (h : s.refused = some r) : (sampleBusy s).StaysRefused r :=
  (pulse_staysRefused h).andThen fun _ _ h => h

theorem captureByte_staysRefused (h : s.refused = some r) : (captureByte s).StaysRefused r :=
  (pulse_staysRefused h).andThen fun _ t h => State.note_some t.fe.refusesRead h

theorem raiseBusTimeout_staysRefused {α : Type} (c : BusCause) (h : s.refused = some r) :
    (raiseBusTimeout c s : Run α).StaysRefused r := by
  cases hs : s.xcvr.bus.sel <;> cases c <;> simpa [raiseBusTimeout, hs] using h

theorem waitSamples_staysRefused (level : Bool) (c : BusCause) : ∀ (n : Nat) {s : State}, s.refused = some r →
    (waitSamples level c n s).StaysRefused r := by
  intro n
  induction n with
  | zero =>
      intro s h
      refine Run.Sat.andThen (sampleBusy_staysRefused h) fun b t ht => ?_
      split
      · exact ht
      · exact raiseBusTimeout_staysRefused c ht
  | succ n ih =>
      intro s h
      refine Run.Sat.andThen (sampleBusy_staysRefused h) fun b t ht => ?_
      split
      · exact ht
      · exact ih ht

theorem waitBusy_staysRefused (p : BtPhase) (level : Bool) (c : BusCause) (h : s.refused = some r) :
    (waitBusy p level c s).StaysRefused r := waitSamples_staysRefused level c _ h

theorem captureBytes_staysRefused : ∀ (n : Nat) {s : State}, s.refused = some r → (captureBytes n s).StaysRefused r := by
  intro n
  induction n with
  | zero => exact fun h => h
  | succ n ih => exact fun h => Run.Sat.andThen (captureByte_staysRefused h) fun _ _ h => ih h

/-- Step 5 keeps the error that was noted before it. -/
theorem releaseSelect_staysRefused (d : BtDir) (n : Nat) (h : s.refused = some r) :
    (releaseSelect d n s).StaysRefused r := by
  refine Run.Sat.andThen (pulse_staysRefused h) fun _ t ht => settle_staysRefused ?_
  cases d with
  | wr => exact State.note_some _ ht
  | rd => exact ht

theorem readFrame_staysRefused (n : Nat) (h : s.refused = some r) : (readFrame n s).StaysRefused r := by
  refine Run.Sat.andThen (Run.Sat.andThen (pulse_staysRefused (by exact h)) fun _ _ h => settle_staysRefused h) fun _ _ h => ?_
  refine Run.Sat.andThen (captureBytes_staysRefused n h) fun _ _ h => ?_
  exact Run.Sat.andThen (waitBusy_staysRefused _ _ _ (by exact h)) fun _ _ h =>
    Run.Sat.andThen (releaseSelect_staysRefused _ _ h) fun _ _ h => waitBusy_staysRefused _ _ _ h

/-- The end of an operation keeps it too, so that the operation answers the refusal. -/
theorem answer_staysRefused {m : Run Completion} (h : m.StaysRefused r) :
    answer .reference (finishRun m) = .refused r := by
  refine answer_refused ?_
  cases m with
  | ok c t => exact h
  | stop w t => cases w <;> exact h

/-! ## A command FE_REF refuses -/

/-- The write frame of a command that FE_REF refuses, when nothing ends it before FE_REF has it: from then on the error is
noted. -/
theorem writeFrame_refused {i : Instr} {bytes : List Byte} {n : Nat} (h : s.fe.Still) (hr : s.resetIn = none)
    (hn : s.refused = none) (hd : decode ⟨bytes, n⟩ = .ok i) (hf : s.fe.refusesCommand s.params i = some r) :
    (writeFrame bytes n s).StaysRefused r := by
  simp only [writeFrame, assertSelect, settle]
  rw [pulse_none (by simpa using hr)]
  simp only [Run.ok_andThen]
  rw [pulse_none (by simpa using hr)]
  simp only [Run.ok_andThen]
  rw [sendBytes_quiet bytes (by simpa using hr)]
  simp only [Run.ok_andThen, finishFrame]
  rw [waitBusy_still (level := true) _ _ (by exact h) (by simpa using hr) rfl]
  simp only [Run.ok_andThen, releaseSelect]
  rw [pulse_none (by simpa using hr)]
  simp only [Run.ok_andThen]
  refine Run.Sat.andThen (settle_staysRefused ?_) fun _ _ h => waitBusy_staysRefused _ _ _ h
  simp only [State.onFe, State.note, State.onBus, State.log, State.enter, hn]
  refine Eq.trans (FrontEnd.refusesFrame_eq s.params ?_) hf
  simpa [FrontEnd.openFrame, FrontEnd.raiseBusy] using hd

/-- A command that FE_REF refuses, as a piece of an operation. -/
theorem sendCommand_refused {i : Instr} (h : s.Calm) (hn : s.refused = none) (hp : paramError s.params i = none)
    (hf : s.fe.refusesCommand s.params i = some r) (hd : decode (encode i) = .ok i) (hn' : (encode i).readLen = 0) :
    (sendCommand i s).StaysRefused r := by
  have hd' : decode ⟨(encode i).frame, 0⟩ = .ok i := by rw [← hn']; exact hd
  simp only [sendCommand, checkOperands, hp, Run.ok_andThen, exchange]
  rw [startExchange_calm (s := dcBegin i s) _ ⟨h.busy, h.lines, h.noReset⟩]
  simp only [Run.ok_andThen]
  exact Run.Sat.andThen (writeFrame_refused (by exact h.lines) h.noReset hn hd' hf) fun _ _ h => h

theorem queryCommand_refused {i : Instr} (h : s.Calm) (hn : s.refused = none) (hp : paramError s.params i = none)
    (hf : s.fe.refusesCommand s.params i = some r) (hd : decode (encode i) = .ok i) : (queryCommand i s).StaysRefused r := by
  simp only [queryCommand, checkOperands, hp, Run.ok_andThen, exchangeRead]
  rw [startExchange_calm (s := dcBegin i s) _ ⟨h.busy, h.lines, h.noReset⟩]
  simp only [Run.ok_andThen]
  exact Run.Sat.andThen (writeFrame_refused (by exact h.lines) h.noReset hn hd hf) fun _ _ h =>
    Run.Sat.andThen (readFrame_staysRefused _ h) fun _ _ h => h

/-- A direct command that FE_REF refuses, from the port. -/
theorem performOperation_refused {body : State → Run Completion} (hk : s.fe.kind = .reference)
    (h : (body s.accept).StaysRefused r) : performOperation body s = .refused r := by
  simp only [performOperation, hk]
  exact answer_staysRefused h

theorem performOperation_send_refused {i : Instr} {f : Unit → Completion} (h : s.Quiet) (hk : s.fe.kind = .reference)
    (hp : paramError s.params i = none) (hf : refusedByReference s.fe.store i = some r)
    (hd : decode (encode i) = .ok i) (hn : (encode i).readLen = 0) :
    performOperation (fun s => (sendCommand i s).map f) s = .refused r := by
  refine performOperation_refused hk (Run.Sat.map ?_)
  refine sendCommand_refused (s := s.accept) ⟨h.calm.busy, h.calm.lines, h.noReset⟩ rfl hp ?_ hd hn
  simpa [FrontEnd.refusesCommand, hk, hp] using hf

theorem performOperation_query_refused {i : Instr} {f : List Byte → Completion} (h : s.Quiet)
    (hk : s.fe.kind = .reference) (hp : paramError s.params i = none) (hf : refusedByReference s.fe.store i = some r)
    (hd : decode (encode i) = .ok i) : performOperation (fun s => (queryCommand i s).map f) s = .refused r := by
  refine performOperation_refused hk (Run.Sat.map ?_)
  refine queryCommand_refused (s := s.accept) ⟨h.calm.busy, h.calm.lines, h.noReset⟩ rfl hp ?_ hd
  simpa [FrontEnd.refusesCommand, hk, hp] using hf

end Sys2Proof.Machine
end

