-- ==== Sys2Proof/Laws/Store.lean ====
section
/-! SUPPORT. The sparse stores: a read after a write, and the canonical form every operation keeps. -/

namespace Sys2Proof.Machine

@[simp] theorem Store.lookup_insert_self {α : Type} (k : Nat) (v : α) (m : List (Nat × α)) :
    Store.lookup k (Store.insert k v m) = some v := by
  induction m with
  | nil => simp [Store.insert, Store.lookup]
  | cons c rest ih =>
      obtain ⟨a, w⟩ := c
      simp only [Store.insert]
      split
      · simp [Store.lookup]
      · split
        · simp [Store.lookup]
        · rename_i h
          simp [Store.lookup, Ne.symm h, ih]

theorem Store.lookup_insert_other {α : Type} {k j : Nat} (h : j ≠ k) (v : α) (m : List (Nat × α)) :
    Store.lookup j (Store.insert k v m) = Store.lookup j m := by
  induction m with
  | nil => simp [Store.insert, Store.lookup, Ne.symm h]
  | cons c rest ih =>
      obtain ⟨a, w⟩ := c
      simp only [Store.insert]
      split
      · simp [Store.lookup, Ne.symm h]
      · split
        · rename_i h'
          subst h'
          simp [Store.lookup, Ne.symm h]
        · simp only [Store.lookup, ih]

theorem Store.risingFrom_mono {α : Type} {low low' : Nat} (h : low' ≤ low) {m : List (Nat × α)}
    (hm : Store.risingFrom low m = true) : Store.risingFrom low' m = true := by
  cases m with
  | nil => rfl
  | cons c rest =>
      simp only [Store.risingFrom, Bool.and_eq_true, decide_eq_true_eq] at hm ⊢
      exact ⟨le_trans h hm.1, hm.2⟩

theorem Store.risingFrom_insert {α : Type} {low k : Nat} (hk : low ≤ k) (v : α) {m : List (Nat × α)}
    (hm : Store.risingFrom low m = true) : Store.risingFrom low (Store.insert k v m) = true := by
  induction m generalizing low with
  | nil => simpa [Store.insert, Store.risingFrom] using hk
  | cons c rest ih =>
      obtain ⟨a, w⟩ := c
      simp only [Store.risingFrom, Bool.and_eq_true, decide_eq_true_eq] at hm
      simp only [Store.insert]
      split
      · rename_i h
        simp only [Store.risingFrom, Bool.and_eq_true, decide_eq_true_eq]
        exact ⟨hk, by omega, hm.2⟩
      · split
        · rename_i h
          subst h
          simpa [Store.risingFrom] using hm
        · simp only [Store.risingFrom, Bool.and_eq_true, decide_eq_true_eq]
          exact ⟨hm.1, ih (by omega) hm.2⟩

/-- Listing a value keeps the canonical form. -/
theorem Store.rising_insert {α : Type} (k : Nat) (v : α) {m : List (Nat × α)} (hm : Store.rising m = true) :
    Store.rising (Store.insert k v m) = true :=
  Store.risingFrom_insert (Nat.zero_le k) v hm

theorem Store.mem_insert {α : Type} {k : Nat} {v : α} {m : List (Nat × α)} {c : Nat × α}
    (h : c ∈ Store.insert k v m) : c = (k, v) ∨ c ∈ m := by
  induction m with
  | nil => simpa [Store.insert] using h
  | cons d rest ih =>
      obtain ⟨a, w⟩ := d
      simp only [Store.insert] at h
      split at h
      · simpa using h
      · split at h
        · rcases List.mem_cons.1 h with h | h
          · exact .inl h
          · exact .inr (List.mem_cons_of_mem _ h)
        · rcases List.mem_cons.1 h with h | h
          · exact .inr (h ▸ List.mem_cons_self)
          · exact (ih h).imp_right (List.mem_cons_of_mem _)

/-- Writing one byte keeps the canonical form of the EEPROM. -/
theorem Memory.wf_write (addr : Nat) (v : Byte) {m : Memory} (hm : Memory.wf m = true) :
    Memory.wf (Memory.write addr v m) = true := by
  unfold Memory.write
  split
  · exact Store.rising_insert addr v hm
  · exact hm

/-- Writing a run of bytes keeps the canonical form of the EEPROM. -/
theorem Memory.wf_writeBytes (data : List Byte) : ∀ (addr : Nat) {m : Memory}, Memory.wf m = true →
    Memory.wf (Memory.writeBytes addr data m) = true := by
  induction data with
  | nil => exact fun _ _ h => h
  | cons b rest ih => exact fun addr _ h => ih (addr + 1) (Memory.wf_write addr b h)

/-- Every listed address lies below the limit. -/
theorem Memory.bound_writeBytes (data : List Byte) : ∀ (addr : Nat) {m : Memory},
    (∀ c ∈ m, c.1 < Config.eepromLimit) → ∀ c ∈ Memory.writeBytes addr data m, c.1 < Config.eepromLimit := by
  induction data with
  | nil => exact fun _ _ h => h
  | cons b rest ih =>
      intro addr m h
      refine ih (addr + 1) ?_
      intro c hc
      unfold Memory.write at hc
      split at hc
      · rcases Store.mem_insert hc with rfl | hc
        · assumption
        · exact h c hc
      · exact h c hc

theorem Memory.read_write (addr : Nat) (v : Byte) (m : Memory) (a : Nat) :
    Memory.read (Memory.write addr v m) a =
      if a = addr ∧ addr < Config.eepromLimit then some v else Memory.read m a := by
  unfold Memory.write Memory.read
  split
  · rename_i h
    by_cases ha : a = addr
    · simp [ha, h]
    · simp [ha, Store.lookup_insert_other ha]
  · rename_i h
    simp [h]

/-- What the EEPROM lists after a run of bytes is written: the data where it reaches, and what it listed elsewhere. -/
theorem Memory.read_writeBytes (data : List Byte) : ∀ (addr : Nat) (m : Memory) (a : Nat),
    addr + data.length ≤ Config.eepromLimit →
    Memory.read (Memory.writeBytes addr data m) a =
      if addr ≤ a ∧ a < addr + data.length then data[a - addr]? else Memory.read m a := by
  induction data with
  | nil =>
      intro addr m a _
      have : ¬ (addr ≤ a ∧ a < addr) := by omega
      simp [Memory.writeBytes, this]
  | cons b rest ih =>
      intro addr m a h
      simp only [List.length_cons] at h ⊢
      rw [Memory.writeBytes, ih (addr + 1) _ a (by omega), Memory.read_write]
      by_cases h1 : a = addr
      · subst h1
        have : a < Config.eepromLimit := by omega
        simp [this]
      · by_cases h2 : addr + 1 ≤ a ∧ a < addr + 1 + rest.length
        · obtain ⟨k, rfl⟩ : ∃ k, a = addr + 1 + k := ⟨a - (addr + 1), by omega⟩
          have e : addr + 1 + k - addr = k + 1 := by omega
          have c1 : addr ≤ addr + 1 + k ∧ addr + 1 + k < addr + (rest.length + 1) := by omega
          rw [if_pos h2, if_pos c1, e, List.getElem?_cons_succ]
          simp
        · have c1 : ¬ (addr ≤ a ∧ a < addr + (rest.length + 1)) := by omega
          have c2 : ¬ (a = addr ∧ addr < Config.eepromLimit) := fun h => h1 h.1
          rw [if_neg h2, if_neg c1, if_neg c2]

end Sys2Proof.Machine
end

