-- ==== Sys2Proof/Laws/Registers.lean ====
section
/-! SUPPORT. The register file: a read after a write, and what each reaction leaves in every register. -/

namespace Sys2Proof.Machine

theorem isPlainReg_ne {a : Byte} (h : isPlainReg a = true) :
    a.toNat ≠ 0x02 ∧ a.toNat ≠ 0x03 ∧ a.toNat ≠ 0x13 ∧ a.toNat ≠ 0x1D := by
  revert a
  decide

/-- A plain storage register holds what was last written to it (R155). -/
theorem FeStore.regRead_setReg_self (p : Params) (kind : FeKind) {a : Byte} (v : Word) (f : FeStore)
    (h : isPlainReg a = true) : (f.setReg a v).regRead p kind a = v := by
  obtain ⟨h2, h3, h13, h1d⟩ := isPlainReg_ne h
  unfold FeStore.setReg FeStore.regRead
  split <;> simp_all

/-- A write to one register leaves every other register alone. -/
theorem FeStore.regRead_setReg_other (p : Params) (kind : FeKind) {a b : Byte} (v : Word) (f : FeStore) (h : b ≠ a) :
    (f.setReg a v).regRead p kind b = f.regRead p kind b := by
  have hn : b.toNat ≠ a.toNat := fun e => h (BitVec.eq_of_toNat_eq e)
  unfold FeStore.setReg
  split <;> try rfl
  all_goals unfold FeStore.regRead
  all_goals split <;> simp_all [FeStore.rfStatus]
  rw [Store.lookup_insert_other hn]

/-- What a register write leaves beside the registers. -/
theorem FeStore.setReg_rest (a : Byte) (v : Word) (f : FeStore) :
    (f.setReg a v).ts = f.ts ∧ (f.setReg a v).irqStatus = f.irqStatus ∧ (f.setReg a v).rxStatus = f.rxStatus ∧
    (f.setReg a v).rfStatusRest = f.rfStatusRest ∧ (f.setReg a v).eeprom = f.eeprom ∧
    (f.setReg a v).txbuf = f.txbuf ∧ (f.setReg a v).txValidBits = f.txValidBits ∧ (f.setReg a v).rxbuf = f.rxbuf ∧
    (f.setReg a v).rfOn = f.rfOn ∧ (f.setReg a v).cfgTx = f.cfgTx ∧ (f.setReg a v).cfgRx = f.cfgRx ∧
    (f.setReg a v).tag = f.tag ∧ (f.setReg a v).epoch = f.epoch ∧ (f.setReg a v).draws = f.draws := by
  unfold FeStore.setReg
  split <;> simp

/-- The command field acts on a frame addressed to SYSTEM_CONFIG only (R63, R83). -/
theorem FeStore.commandField_other (p : Params) (kind : FeKind) {a : Byte} (old : Word) (f : FeStore) (h : a ≠ 0x00) :
    f.commandField p kind a old = f := by
  cases kind with
  | unconstrained => exact if_neg fun e => h e.1
  | reference => exact if_neg h

/-- A frame that leaves the command field as it was moves nothing in an unconstrained front-end (R83). -/
theorem FeStore.commandField_same (p : Params) (a : Byte) {old : Word} (f : FeStore)
    (h : f.systemConfig &&& p.cmdMask = old &&& p.cmdMask) : f.commandField p .unconstrained a old = f := by
  simp [FeStore.commandField, h]

/-- All the command field can move in an unconstrained front-end is the transceive state (R83). -/
theorem FeStore.commandField_unconstrained (p : Params) (a : Byte) (old : Word) (f : FeStore) :
    ∃ ts draws, f.commandField p .unconstrained a old = { f with ts := ts, draws := draws } := by
  unfold FeStore.commandField
  dsimp only
  split
  · exact ⟨_, _, rfl⟩
  · exact ⟨_, _, rfl⟩

/-- What LoadRFConfig leaves whatever the front-end: the profiles, and everything that is no register of configuration (R180,
log entry 32). -/
theorem FeStore.reactLoadRFConfig_rest (kind : FeKind) (tx rx : Byte) (f : FeStore) :
    (f.reactLoadRFConfig kind tx rx).cfgTx = profile tx f.cfgTx ∧
    (f.reactLoadRFConfig kind tx rx).cfgRx = profile rx f.cfgRx ∧
    (f.reactLoadRFConfig kind tx rx).irqEnable = f.irqEnable ∧
    (f.reactLoadRFConfig kind tx rx).irqStatus = f.irqStatus ∧
    (f.reactLoadRFConfig kind tx rx).rxStatus = f.rxStatus ∧ (f.reactLoadRFConfig kind tx rx).ts = f.ts ∧
    (f.reactLoadRFConfig kind tx rx).eeprom = f.eeprom ∧ (f.reactLoadRFConfig kind tx rx).epoch = f.epoch ∧
    (f.reactLoadRFConfig kind tx rx).txbuf = f.txbuf ∧
    (f.reactLoadRFConfig kind tx rx).txValidBits = f.txValidBits ∧
    (f.reactLoadRFConfig kind tx rx).rxbuf = f.rxbuf ∧ (f.reactLoadRFConfig kind tx rx).rfOn = f.rfOn ∧
    (f.reactLoadRFConfig kind tx rx).tag = f.tag := by
  unfold FeStore.reactLoadRFConfig FeStore.configUnknown
  cases kind with
  | reference => simp
  | unconstrained => dsimp only; split <;> simp

/-- In FE_REF, and for the pair that leaves both profiles unchanged, nothing but the profiles changes (R65, R180). -/
theorem FeStore.reactLoadRFConfig_stored (f : FeStore) {kind : FeKind} {tx rx : Byte}
    (h : kind = .reference ∨ (tx = 0xFF ∧ rx = 0xFF)) :
    f.reactLoadRFConfig kind tx rx = { f with cfgTx := profile tx f.cfgTx, cfgRx := profile rx f.cfgRx } := by
  unfold FeStore.reactLoadRFConfig
  rcases h with rfl | h
  · rfl
  · cases kind with
    | reference => rfl
    | unconstrained => exact if_pos h

/-- What FE does on its own moves the field as the flags it sets say, where they say something (log entry 31). -/
theorem FeAct.fieldAfter_flags (w : Word) (old : Bool) :
    (FeAct.flags w).fieldAfter old =
      if w.getLsbD txRfOnBit = w.getLsbD txRfOffBit then old else w.getLsbD txRfOnBit := by
  unfold FeAct.fieldAfter FeAct.flags
  cases w.getLsbD txRfOnBit <;> cases w.getLsbD txRfOffBit <;> rfl

end Sys2Proof.Machine
end

