-- ==== Sys2Proof/Tests/Slice0.lean ====
section
/-! SUPPORT. The tests: ill-formed terms refused, the frames of the spec decoded, the vectors of spec/95_test_vectors.md one step
at a time, and, for every statement with hypotheses, states and operands that meet them. -/

namespace Sys2Proof.Tests

open Machine

set_option Elab.async false

/-! ## Ill-formed terms -/

theorem test_wf_writeEEPROM_addr : (Instr.writeEEPROM 256 [0x01]).wf = false := by decide
theorem test_wf_writeEEPROM_empty : (Instr.writeEEPROM 0 []).wf = false := by decide
theorem test_wf_writeEEPROM_long : (Instr.writeEEPROM 0 (List.replicate 255 0x00)).wf = false := by decide +kernel
theorem test_wf_readEEPROM_addr : (Instr.readEEPROM 256 1).wf = false := by decide
theorem test_wf_readEEPROM_zero : (Instr.readEEPROM 0 0).wf = false := by decide
theorem test_wf_readEEPROM_long : (Instr.readEEPROM 0 255).wf = false := by decide
theorem test_wf_sendData_empty : (Instr.sendData [] 0).wf = false := by decide
theorem test_wf_sendData_long : (Instr.sendData (List.replicate 261 0x00) 0).wf = false := by decide +kernel
theorem test_wf_sendData_bits : (Instr.sendData [0x26] 8).wf = false := by decide
theorem test_wf_readData_zero : (Instr.readData 0).wf = false := by decide
theorem test_wf_readData_long : (Instr.readData 509).wf = false := by decide

/-! ## Frames, from the examples of R104 to R115 -/

theorem test_decode_writeRegister : decode ⟨[0x00, 0x03, 0x07, 0x40, 0x00, 0x00], 0⟩ =
    .ok (.writeRegister 0x03 0x00004007) := by decide
theorem test_decode_orMask : decode ⟨[0x01, 0x00, 0x03, 0x00, 0x00, 0x00], 0⟩ =
    .ok (.writeRegisterOrMask 0x00 0x00000003) := by decide
theorem test_decode_andMask : decode ⟨[0x02, 0x00, 0xF8, 0xFF, 0xFF, 0xFF], 0⟩ =
    .ok (.writeRegisterAndMask 0x00 0xFFFFFFF8) := by decide
theorem test_decode_readRegister : decode ⟨[0x04, 0x02], 4⟩ = .ok (.readRegister 0x02) := by decide
theorem test_decode_writeEEPROM : decode ⟨[0x06, 0x10, 0xAA, 0xBB], 0⟩ = .ok (.writeEEPROM 0x10 [0xAA, 0xBB]) := by decide
theorem test_decode_readEEPROM : decode ⟨[0x07, 0x10, 0x02], 2⟩ = .ok (.readEEPROM 0x10 2) := by decide
theorem test_decode_sendData : decode ⟨[0x09, 0x07, 0x26], 0⟩ = .ok (.sendData [0x26] 7) := by decide
theorem test_decode_readData : decode ⟨[0x0A, 0x00], 2⟩ = .ok (.readData 2) := by decide
theorem test_decode_loadRFConfig : decode ⟨[0x11, 0x0D, 0x8D], 0⟩ = .ok (.loadRFConfig 0x0D 0x8D) := by decide
theorem test_decode_rfOn : decode ⟨[0x16, 0x00], 0⟩ = .ok .rfOn := by decide
theorem test_decode_rfOff : decode ⟨[0x17, 0x00], 0⟩ = .ok .rfOff := by decide
/-- The request for SwitchMode is the opcode byte, whatever follows it (log entry 9). -/
theorem test_decode_switchMode : decode ⟨[0x0B], 0⟩ = .ok .switchMode := by decide
theorem test_decode_switchMode_long : decode ⟨[0x0B, 0x01, 0xFF], 4⟩ = .ok .switchMode := by decide
/-- The two examples of R117, an opcode of R116, an empty frame, and a constant byte that is not 0x00. -/
theorem test_decode_short_write : decode ⟨[0x00, 0x03, 0x07, 0x40, 0x00], 0⟩ = .error (.wrongLength 0x00 5) := by decide
theorem test_decode_short_read : decode ⟨[0x04], 4⟩ = .error (.wrongLength 0x04 1) := by decide
theorem test_decode_unlisted : decode ⟨[0x03, 0x00], 0⟩ = .error (.unlistedOpcode 0x03) := by decide
theorem test_decode_empty : decode ⟨[], 0⟩ = .error .noOpcode := by decide
theorem test_decode_constant : decode ⟨[0x16, 0x01], 0⟩ = .error (.wrongConstant 0x16 0x01) := by decide
theorem test_decode_filler : decode ⟨[0xFF, 0xFF], 0⟩ = .error (.unlistedOpcode 0xFF) := by decide
/-- A table word: byte k of the frame is bits 8k+7 to 8k. -/
theorem test_tableWord : decodeTableWord 48 0x00004007_0300 = some (.writeRegister 0x03 0x00004007) := by decide

/-! ## Small machines -/

/-- A front-end that holds zeros. -/
def zeros : FeStore where
  systemConfig := 0
  irqEnable := 0
  irqStatus := 0
  transceiveControl := 0
  crcRxConfig := 0
  rxStatus := 0
  crcTxConfig := 0
  ts := 0
  rfStatusRest := 0
  others := []
  eeprom := []
  txbuf := []
  txValidBits := 0
  rxbuf := []
  rfOn := false
  cfgTx := 0
  cfgRx := 0
  tag := []
  epoch := 0
  regEpoch := 0
  clearReads := 0
  draws := 0

/-- The machine after reset with a front-end of a kind, holding a store. -/
def machine (kind : FeKind) (f : FeStore) : State :=
  { State.reset with fe := ⟨kind, f, false, false, [], [], ⟨[], [], [], []⟩⟩ }

/-- FE_REF with a store. -/
def ref (f : FeStore) : State := machine .reference f

/-- A front-end that is not FE_REF, with a store. -/
def wild (f : FeStore) : State := machine .unconstrained f

/-- A machine whose front-end has these actions of its own ahead. -/
def withActs (l : List FeAct) (s : State) : State :=
  { s with fe := { s.fe with inputs := { s.fe.inputs with acts := l } } }

/-- A machine that polls this many times for the start-of-frame flag. -/
def withWindow (polls : Nat) (s : State) : State := { s with params := { s.params with nRespPolls := polls } }

/-- The state a step answers. -/
def after (o : Host.Outcome State Fault Refusal) : State :=
  match o with
  | .next t => t
  | .fault _ => State.reset
  | .refused _ => State.reset

/-- A machine with one operation at the port. -/
def withRequest (r : Request) (s : State) : State := { s with requests := [r] }

/-- A tag that gives one answer to whatever it hears. -/
def answers (r : List Byte) : FeStore := { zeros with tag := [⟨none, r, false⟩] }

/-- A request of the engine with the transceive cycle and classification (E1). -/
def request (req : List Byte) : ProtocolRequest := ⟨req, 0, .keep, .keep, true, true⟩

/-! ## One step at a time: the vectors of spec/95_test_vectors.md -/

/-- S1. -/
theorem test_writeRegister_S1 :
    let t := after (exec (.writeRegister 0x04 0xDEADBEEF) (ref zeros))
    t.reg 0x04 = 0xDEADBEEF ∧ bytesSent t.trace = [0x00, 0x04, 0xEF, 0xBE, 0xAD, 0xDE] := by decide +kernel
/-- RG4. -/
theorem test_writeRegister_RG4 :
    let t := after (exec (.writeRegister 0x05 0x00000001) (ref zeros))
    t.completion = some ⟨.paramError .badRegister, .none⟩ ∧ t.trace = [] := by decide +kernel
/-- RG5. -/
theorem test_orMask_RG5 :
    (after (exec (.writeRegisterOrMask 0x12 0x00000001) (ref { zeros with crcRxConfig := 0x000000A0 }))).reg 0x12 =
      0x000000A1 := by decide +kernel
/-- The example of R152; the command field is then the transceive command (R63). -/
theorem test_orMask_R152 :
    let t := after (exec (.writeRegisterOrMask 0x00 0x00000003) (ref { zeros with systemConfig := 0x00000040 }))
    t.reg 0x00 = 0x00000043 ∧ t.fe.store.ts = 1 := by decide +kernel
/-- RG7. -/
theorem test_andMask_RG7 :
    (after (exec (.writeRegisterAndMask 0x19 0xFFFFFFFE) (ref { zeros with crcTxConfig := 0x00000013 }))).reg 0x19 =
      0x00000012 := by decide +kernel
/-- RG8; the command field is then the idle command (R63). -/
theorem test_andMask_RG8 :
    let t := after (exec (.writeRegisterAndMask 0x00 0x00000000) (ref { zeros with systemConfig := 0xABCDEF01 }))
    t.reg 0x00 = 0 ∧ t.reg 0x02 = 0x00000004 := by decide +kernel
/-- RG11: byte 0 is the least significant. -/
theorem test_readRegister_RG11 :
    let t := after (exec (.readRegister 0x02) (wild { zeros with irqStatus := 0x12345678 }))
    t.completion = some ⟨.ok, .value 0x12345678⟩ ∧ bytesCaptured t.trace = [0x78, 0x56, 0x34, 0x12] := by decide +kernel
/-- The worked trace of R143, every event in order, `T_SETTLE` holds and phases left out. -/
theorem test_readRegister_R143 :
    let t := after (exec (.readRegister 0x02) (wild { zeros with irqStatus := 0x00004005 }))
    (t.trace.reverse.filter fun e => match e with
      | .phase _ => false
      | .settle => false
      | _ => true) =
    [.busy false, .select true, .sent 0x04, .sent 0x02, .busy true, .select false, .busy false, .select true,
      .captured 0xFF 0x05, .captured 0xFF 0x40, .captured 0xFF 0x00, .captured 0xFF 0x00, .busy true, .select false,
      .busy false] := by decide +kernel
/-- M10. -/
theorem test_writeEEPROM_M10 :
    let t := after (exec (.writeEEPROM 0x10 [0xAA, 0xBB]) (ref zeros))
    t.eepromAt 0x10 = 0xAA ∧ t.eepromAt 0x11 = 0xBB ∧ bytesSent t.trace = [0x06, 0x10, 0xAA, 0xBB] := by decide +kernel
/-- M13. -/
theorem test_writeEEPROM_M13 :
    (after (exec (.writeEEPROM 0xFD [0x01, 0x02]) (ref zeros))).completion = some ⟨.paramError .badEepromRange, .none⟩ := by
  decide +kernel
/-- M9. -/
theorem test_readEEPROM_M9 :
    let t := after (exec (.readEEPROM 0x10 2) (ref { zeros with eeprom := [(0x10, 0x04), (0x11, 0x00)] }))
    t.completion = some ⟨.ok, .bytes [0x04, 0x00]⟩ ∧ bytesSent t.trace = [0x07, 0x10, 0x02] := by decide +kernel
/-- M7: 300 does not wrap to 44. -/
theorem test_readEEPROM_M7 :
    (after (exec (.readEEPROM 200 100) (ref zeros))).completion = some ⟨.paramError .badEepromRange, .none⟩ := by
  decide +kernel
/-- T1. -/
theorem test_sendData_T1 :
    let t := after (exec (.sendData [0x26] 7) (ref zeros))
    bytesSent t.trace = [0x09, 0x07, 0x26] ∧ t.fe.store.txbuf = [0x26] ∧ t.reg 0x02 = 0x00000002 := by decide +kernel
/-- T7: the length is tested first. -/
theorem test_sendData_T7 :
    (after (exec (.sendData (List.replicate 261 0x00) 9) (ref zeros))).completion =
      some ⟨.paramError .badSendLength, .none⟩ := by decide +kernel
/-- T13. -/
theorem test_readData_T13 :
    let t := after (exec (.readData 2) (ref { zeros with rxbuf := [0x44, 0x00], rxStatus := 2 }))
    t.completion = some ⟨.ok, .bytes [0x44, 0x00]⟩ ∧ bytesSent t.trace = [0x0A, 0x00] := by decide +kernel
/-- T11. -/
theorem test_readData_T11 :
    (after (exec (.readData 509) (ref zeros))).completion = some ⟨.paramError .badReadLength, .none⟩ := by decide +kernel
/-- The example of R180. -/
theorem test_loadRFConfig_R180 :
    let t := after (exec (.loadRFConfig 0x0D 0xFF) (ref { zeros with cfgRx := 0x33 }))
    bytesSent t.trace = [0x11, 0x0D, 0xFF] ∧ t.fe.store.cfgTx = 0x0D ∧ t.fe.store.cfgRx = 0x33 := by decide +kernel
/-- F8: only bit 9 is cleared. -/
theorem test_rfOn_F8 :
    let t := after (exec .rfOn (ref { zeros with irqStatus := 0x00000104 }))
    t.completion = some ⟨.ok, .none⟩ ∧ t.fe.store.rfOn = true ∧ t.reg 0x02 = 0x00000104 ∧
    bytesSent t.trace = [0x16, 0x00, 0x04, 0x02, 0x00, 0x03, 0x00, 0x02, 0x00, 0x00] ∧
    bytesCaptured t.trace = [0x04, 0x03, 0x00, 0x00] := by decide +kernel
/-- F5 and F7: the flag appears at the third poll of at most three; the own actions come before each write frame. -/
theorem test_rfOn_F7 :
    let s := wild zeros
    let t := after (exec .rfOn
      { s with
        params := { s.params with nIrqPolls := 3 }
        fe := { s.fe with inputs := ⟨[], [], [], List.replicate 3 .nothing ++ [.flags 0x00000200]⟩ } })
    t.completion = some ⟨.ok, .none⟩ ∧ framesOpened t.trace = 8 ∧ t.xcvr.dc.polls = 2 ∧ t.fe.store.rfOn = true := by decide +kernel
/-- F4. -/
theorem test_rfOff_F4 :
    let t := after (exec .rfOff (ref { zeros with rfOn := true }))
    t.completion = some ⟨.ok, .none⟩ ∧ t.fe.store.rfOn = false ∧ t.reg 0x02 = 0 ∧
    bytesSent t.trace = [0x17, 0x00, 0x04, 0x02, 0x00, 0x03, 0x00, 0x01, 0x00, 0x00] := by decide +kernel
/-- F10: bit 9 is not the bit SetRFOff waits for. -/
theorem test_rfOff_F10 :
    let s := wild { zeros with irqStatus := 0x00000200 }
    let t := after (exec .rfOff { s with params := { s.params with nIrqPolls := 2 } })
    t.completion = some ⟨.busTimeout .irqPoll, .none⟩ ∧ framesOpened t.trace = 5 := by decide +kernel
/-- F11: as a command and as a record with bytes after the opcode. -/
theorem test_switchMode_F11 :
    let t := after (exec .switchMode (ref zeros))
    let u := after (step (withRequest (.encoded ⟨[0x0B, 0x02, 0xFF], 4⟩) (ref zeros)))
    t.completion = some ⟨.unsupported, .none⟩ ∧ t.trace = [] ∧ u.completion = some ⟨.unsupported, .none⟩ ∧
    u.trace = [] := by decide +kernel
/-- R263: SwitchMode leaves the poll count of an earlier command. -/
theorem test_switchMode_R263 :
    let s := ref zeros
    let polled : State := { s with xcvr := { s.xcvr with dc := { s.xcvr.dc with polls := 3 } } }
    (after (exec .switchMode polled)).xcvr = polled.xcvr := by decide +kernel
/-- R66: FE_REF refuses opcode 0x0B, a frame that is no command, a register outside `DEFINED_REGS`, an EEPROM read past 253, 8
valid bits, and a read frame it has prepared nothing for. -/
theorem test_reference_R66 :
    let fe := (ref zeros).fe
    let refuses (l : List Byte) (n : Nat) := ({ fe with frameIn := l } : FrontEnd).refusesFrame Params.default n
    refuses [0x0B] 0 = some .frontEndRefusesSwitchMode ∧ refuses [0x0B, 0x01] 4 = some .frontEndRefusesSwitchMode ∧
    refuses [0x04] 4 = some (.frontEndRefusesFrame (.wrongLength 0x04 1)) ∧
    refuses [0x04, 0x05] 4 = some (.frontEndRefusesOperands .badRegister) ∧
    refuses [0x07, 0xFD, 0x02] 2 = some (.frontEndRefusesOperands .badEepromRange) ∧
    refuses [0x07, 0xFD, 0x01] 1 = none ∧
    refuses [0x09, 0x08, 0x26] 0 = some (.frontEndRefusesOperands .badValidBits) ∧
    fe.refusesRead = some .frontEndRefusesReadFrame := by decide
/-- R78: 7 valid bits of 0xA6 and of 0x26 are one RF frame, and 0 valid bits are all eight. -/
theorem test_rfFrame_R78 :
    rfFrame [0x93, 0xA6] 7 = rfFrame [0x93, 0x26] 7 ∧ rfFrame [0xA6] 0 ≠ rfFrame [0x26] 0 ∧
    rfFrame [0x26] 7 = ([0x26], 7) := by decide
/-- Q1. -/
theorem test_getIrqStatus_Q1 :
    let t := after (step (withRequest .getIrqStatus (wild { zeros with irqStatus := 0x00004005 })))
    t.completion = some ⟨.ok, .irqStatus 0x00004005 ⟨true, false, true, false, false, false, false, true⟩⟩ ∧
    t.xcvr.irqSnap = 0x00004005 := by decide +kernel
/-- Q3 and Q4. -/
theorem test_decodeIrq_Q3_Q4 :
    decodeIrq 0xFFFFBC38 = ⟨false, false, false, false, false, false, false, false⟩ ∧
    decodeIrq 0x000043C7 = ⟨true, true, true, true, true, true, true, true⟩ := by decide
/-- Q6. -/
theorem test_clearIrqStatus_Q6 :
    let t := after (step (withRequest (.clearIrqStatus 0x00004007) (ref { zeros with irqStatus := 0x00004205 })))
    t.reg 0x02 = 0x00000200 ∧ bytesSent t.trace = [0x00, 0x03, 0x07, 0x40, 0x00, 0x00] := by decide +kernel
/-- Q10: the low 24 bits are ignored. -/
theorem test_getTransceiveState_Q10 :
    (after (step (withRequest .getTransceiveState (wild { zeros with ts := 2, rfStatusRest := 0x00ABCDEF })))).completion =
      some ⟨.ok, .transceiveState .transmitting⟩ := by decide +kernel
/-- Q12: bits 31 to 27 are ignored. -/
theorem test_tsField_Q12 : tsField 24 0xF8FFFFFF = 0 := by decide
/-- Q14 and Q15. -/
theorem test_isIrqAsserted_Q14 :
    let t := after (step (withRequest .isIrqAsserted (ref { zeros with irqStatus := 1, irqEnable := 1 })))
    t.completion = some ⟨.ok, .line true⟩ ∧ t.trace = [.irq true] := by decide +kernel
theorem test_isIrqAsserted_Q15 :
    let s := withRequest .isIrqAsserted (ref zeros)
    (after (step { s with params := { s.params with irqFitted := false } })).completion = some ⟨.unsupported, .none⟩ := by
  decide +kernel
/-- The worked example of R223: the frames, the outcome, the flags afterwards. -/
theorem test_engine_R223 :
    let t := after (step (withRequest (.protocolTransact (request [0x26, 0x01, 0x00]))
      (ref (answers [0x00, 0x00, 0xE0, 0x04, 0x01, 0x00, 0x11, 0x22, 0x33, 0x44]))))
    t.completion = some ⟨.ok, .response [0x00, 0x00, 0xE0, 0x04, 0x01, 0x00, 0x11, 0x22, 0x33, 0x44] (some false)⟩ ∧
    bytesSent t.trace =
      [0x02, 0x00, 0xF8, 0xFF, 0xFF, 0xFF, 0x01, 0x00, 0x03, 0x00, 0x00, 0x00, 0x04, 0x1D, 0x09, 0x00, 0x26, 0x01, 0x00,
        0x04, 0x02, 0x04, 0x13, 0x0A, 0x00, 0x00, 0x03, 0x07, 0x40, 0x00, 0x00] ∧
    bytesCaptured t.trace =
      [0x00, 0x00, 0x00, 0x01, 0x07, 0x40, 0x00, 0x00, 0x0A, 0x00, 0x00, 0x00] ++
        [0x00, 0x00, 0xE0, 0x04, 0x01, 0x00, 0x11, 0x22, 0x33, 0x44] ∧
    t.reg 0x02 = 0 ∧ framesOpened t.trace = 12 ∧ traceLegal t.trace = true := by decide +kernel
/-- E2. -/
theorem test_engine_E2 :
    let s := withRequest (.protocolTransact (request [0x22])) (ref zeros)
    let t := after (step { s with params := { s.params with nRespPolls := 2 } })
    t.completion = some ⟨.noCard, .none⟩ ∧ framesOpened t.trace = 10 := by decide +kernel
/-- E8, E11b. -/
theorem test_engine_E8 :
    (after (step (withRequest (.protocolTransact (request [0x22])) (ref (answers [0x01, 0xB5]))))).completion =
      some ⟨.tagError (.customCommandError 0xB5), .response [0x01, 0xB5] none⟩ ∧
    (after (step (withRequest (.protocolTransact (request [0x22])) (ref (answers [0x09, 0x10]))))).completion =
      some ⟨.tagError .blockNotAvailable, .response [0x09, 0x10] none⟩ := by decide +kernel
/-- E13, E13b: the state read is not WaitTransmit, the front-end having moved there by its own action. -/
theorem test_engine_E13 :
    let t (n : BitVec 3) := after (step (withRequest (.protocolTransact (request [0x22]))
      (withActs [FeAct.nothing, FeAct.nothing, FeAct.state n] (wild zeros))))
    (t 0).completion = some ⟨.preconditionViolation 0, .none⟩ ∧ framesOpened (t 0).trace = 5 ∧
    (t 7).completion = some ⟨.preconditionViolation 7, .none⟩ := by decide +kernel
/-- R83: the state is as before when the command field is. -/
theorem test_commandField_R83 :
    (after (exec (.writeRegister 0x00 0xFFFFFFF8) (wild { zeros with ts := 5 }))).fe.store.ts = 5 := by decide +kernel
/-- E3: the length read is 511. -/
theorem test_engine_E3 :
    let s := withRequest (.protocolTransact (request [0x22]))
      (withActs [FeAct.nothing, FeAct.nothing, FeAct.state 1]
        (wild { zeros with irqStatus := 0x00004000, rxStatus := 0x000001FF }))
    let t := after (step s)
    t.completion = some ⟨.noCard, .none⟩ ∧ framesOpened t.trace = 4 + 1 + 2 + 2 + 1 := by decide +kernel
/-- E17: the flag is set for the second and last poll of the window; with a window of one poll there is no card. -/
theorem test_engine_E17 :
    let ends (window : Nat) := after (step (withRequest (.protocolTransact (request [0x22]))
      (withActs [FeAct.nothing, FeAct.nothing, FeAct.state 1, FeAct.nothing, FeAct.flags 0x00000006, FeAct.flags 0x00004001]
        (withWindow window (wild { zeros with rxStatus := 2, rxbuf := [0x00, 0xAA] })))))
    (ends 2).completion = some ⟨.ok, .response [0x00, 0xAA] (some false)⟩ ∧ framesOpened (ends 2).trace = 14 ∧
    (ends 1).completion = some ⟨.noCard, .none⟩ := by decide +kernel
/-- E16: both CRC controls. -/
theorem test_engine_E16 :
    let t := after (step (withRequest (.protocolTransact { request [0x22] with crcTx := .on, crcRx := .on })
      (ref (answers [0x00]))))
    (bytesSent t.trace).take 12 = [0x01, 0x19, 0x01, 0x00, 0x00, 0x00, 0x01, 0x12, 0x01, 0x00, 0x00, 0x00] ∧
    framesOpened t.trace = 14 := by decide +kernel
/-- E3b to E5: the lengths 0, 509 and 510. -/
theorem test_engine_lengths :
    let ends (n : Word) := (after (step (withRequest (.protocolTransact (request [0x22]))
      (withActs [FeAct.nothing, FeAct.nothing, FeAct.state 1]
        (wild { zeros with irqStatus := 0x00004000, rxStatus := n }))))).completion
    ends 0 = some ⟨.noCard, .none⟩ ∧ ends 509 = some ⟨.paramError .badReadLength, .none⟩ ∧
    ends 510 = some ⟨.paramError .badReadLength, .none⟩ := by decide +kernel
/-- B4 and B5, with the record of events legal all the same. -/
theorem test_bus_B4_B5 :
    let s := wild zeros
    let cut (l : List Bool) := after (exec .rfOff { s with fe := { s.fe with inputs := ⟨l, [], [], []⟩ } })
    (cut [false, false, false, false]).completion = some ⟨.busTimeout .waitBusyAssert, .none⟩ ∧
    traceLegal (cut [false, false, false, false]).trace = true ∧
    bytesSent (cut [false, false, false, false]).trace = [0x17, 0x00] ∧
    (cut [false, true, true, true, true]).completion = some ⟨.busTimeout .waitBusyRelease, .none⟩ ∧
    traceLegal (cut [false, true, true, true, true]).trace = true := by decide +kernel
/-- R290: a reset event in the middle of a frame; the block is as after reset, and the record stays legal. -/
theorem test_reset_event :
    let t := after (exec .rfOn { ref zeros with resetIn := some 4 })
    t.completion = none ∧ t.xcvr = Xcvr.reset ∧ t.trace.head? = some .reset ∧ traceLegal t.trace = true := by decide +kernel
/-- R62 and R290: a reset event before the frame FE_REF would refuse abandons the operation. -/
theorem test_reset_before_refusal :
    let o := exec (.writeRegister 0x02 0) { ref zeros with resetIn := some 0 }
    o = .next (after o) ∧ (after o).completion = none ∧ (after o).xcvr = Xcvr.reset ∧
    exec (.writeRegister 0x02 0) (ref zeros) = .refused (.frontEndRefusesWrite 0x02) :=
  ⟨rfl, by decide +kernel, by decide +kernel, rfl⟩
/-- P3, P4, P5: the activation vectors A1, A2, A3. -/
theorem test_activation_A1 :
    (match activateTypeA 0x26 (ref { zeros with tag := tag4 0x26 0x04 0x00 0xDE 0xAD 0xBE 0xEF 0x22 0x08 }) with
      | .next (.ok a, _) => a.uid
      | _ => []) = [0xDE, 0xAD, 0xBE, 0xEF] := by decide +kernel
theorem test_activation_A2 :
    (match activateTypeA 0x26
        (ref { zeros with
          tag := tag4 0x26 0x44 0x00 0x88 0x04 0xA1 0xB2 0x9F 0x04 ++
            [⟨some ([0x95, 0x20], 0), [0xC3, 0xD4, 0xE5, 0xF6, 0x04], false⟩,
              ⟨some ([0x95, 0x70, 0xC3, 0xD4, 0xE5, 0xF6, 0x04], 0), [0x00], false⟩] }) with
      | .next (.ok a, _) => a.uid
      | _ => []) = [0x04, 0xA1, 0xB2, 0xC3, 0xD4, 0xE5, 0xF6] := by decide +kernel
theorem test_activation_A3 :
    (match activateTypeA 0x26 (ref { zeros with tag := tag4 0x26 0x04 0x00 0x12 0x34 0x56 0x78 0x08 0x24 }) with
      | .next (.protocolViolation, _) => true
      | _ => false) = true := by decide +kernel
/-- S6 and I5. -/
theorem test_systemInfo_S6 :
    parseSystemInfo [0x00, 0x07, 0x44, 0x33, 0x22, 0x11, 0x00, 0x01, 0x04, 0xE0, 0x5A, 0x00, 0x03, 0x1B] =
      some ⟨some 0x5A, some 0x00, some 4, some 28, none⟩ ∧
    parseSystemInfo [0x00, 0x05, 0x44, 0x33, 0x22, 0x11, 0x00, 0x01, 0x04, 0xE0, 0x5A, 0xE0, 0x00] =
      some ⟨some 0x5A, none, some 1, some 1, none⟩ := by decide
/-- I1: the UID as displayed. -/
theorem test_displayedUid_I1 : displayedUid [0xE0, 0x04, 0x01, 0x00, 0x11, 0x22, 0x33, 0x44] =
    [0x44, 0x33, 0x22, 0x11, 0x00, 0x01, 0x04, 0xE0] := by decide
/-- The first step after reset runs the word of a table row put where the next operation is fetched. -/
theorem test_withFetchWord : (match step (State.reset.withFetchWord 8 0x16) with
    | .next _ => true
    | _ => false) = true := by decide +kernel

/-! ## Witnesses: for each statement with hypotheses, states and operands that meet them together, at the ends of the ranges -/

theorem quiet_ref (f : FeStore) : (ref f).Quiet := ⟨rfl, rfl⟩
theorem quiet_wild (f : FeStore) : (wild f).Quiet := ⟨rfl, rfl⟩

theorem witness_DecodeEncodeRoundTrip :
    (Instr.writeEEPROM 255 (List.replicate 254 0xAA)).wf = true ∧ (Instr.readEEPROM 0 254).wf = true ∧
    (Instr.sendData (List.replicate 260 0xFF) 7).wf = true ∧ (Instr.readData 508).wf = true := by decide +kernel
theorem witness_DecodedIsEncoded :
    decode ⟨[0x04, 0x13], 4⟩ = .ok (.readRegister 0x13) ∧ Instr.readRegister 0x13 ≠ .switchMode := by decide
/-- Every clause of the length table, both ends of each range. -/
theorem witness_FrameLengthsChecked :
    (∀ op ∈ [0x00, 0x01, 0x02], (decode ⟨op :: [0x00, 0x01, 0x02, 0x03, 0x04], 0⟩).toBool = true) ∧
    (decode ⟨0x04 :: [0x00], 4⟩).toBool = true ∧ (decode ⟨0x0A :: [0x00], 508⟩).toBool = true ∧
    (∀ op ∈ [0x16, 0x17], (decode ⟨op :: [0x00], 0⟩).toBool = true) ∧
    (decode ⟨0x07 :: [0x00, 0xFE], 254⟩).toBool = true ∧ (decode ⟨0x11 :: [0xFF, 0xFF], 0⟩).toBool = true ∧
    (decode ⟨0x06 :: [0x00, 0xAA], 0⟩).toBool = true ∧
    (decode ⟨0x06 :: 0x00 :: List.replicate 254 0xAA, 0⟩).toBool = true ∧
    (decode ⟨0x09 :: [0x07, 0x26], 0⟩).toBool = true ∧
    (decode ⟨0x09 :: 0x00 :: List.replicate 260 0x26, 0⟩).toBool = true := by decide +kernel
theorem witness_AcceptedFramesFit :
    paramError Params.default (.sendData (List.replicate 260 0x00) 7) = none ∧
    paramError Params.default (.readData 508) = none ∧
    paramError Params.default (.writeEEPROM 253 [0x00]) = none := by decide +kernel
theorem witness_StepRunsDecodedInstruction :
    let e : Encoding := ⟨[0x04, 0x13], 4⟩
    let s := withRequest (.encoded e) (ref zeros)
    s.xcvr.xcBusy = false ∧ s.requests = .encoded e :: [] ∧ decode e = .ok (.readRegister 0x13) ∧
    (withRequest (.direct .rfOn) (ref zeros)).requests = .direct .rfOn :: [] ∧
    decodeTableWord 48 0x00004007_0300 = some (.writeRegister 0x03 0x00004007) ∧
    ({ s with xcvr := { s.xcvr with xcBusy := true } } : State).xcvr.xcBusy = true := by decide
theorem witness_UnlistedRequestsUnsupported :
    (withRequest (.unlisted 17) (ref zeros)).requests = .unlisted 17 :: [] ∧
    decode ⟨[0x03], 0⟩ = .error (.unlistedOpcode 0x03) ∧ (ref zeros).xcvr.xcBusy = false := by decide
theorem witness_SwitchModeUnsupported :
    let s := withRequest (.encoded ⟨0x0B :: [0x00], 508⟩) (ref zeros)
    s.xcvr.xcBusy = false ∧ s.requests = .encoded ⟨0x0B :: [0x00], 508⟩ :: [] ∧ s.xcvr.isIdle = true := by decide
theorem witness_EveryOperationCompletes :
    let s := withRequest (.direct .switchMode) (ref zeros)
    s.resetIn = none ∧ s.requests = .direct .switchMode :: [] ∧ step s = .next (after (step s)) := ⟨rfl, rfl, rfl⟩
/-- A record that is an encoding of a command, one with an unlisted opcode, and one that is no encoding. -/
theorem witness_EveryOperationCompletes_runs :
    let s := withRequest (.encoded ⟨[0x16, 0x00], 0⟩) (wild zeros)
    s.xcvr.xcBusy = false ∧ s.fe.kind = .unconstrained ∧ s.requests = .encoded ⟨[0x16, 0x00], 0⟩ :: [] ∧
    (∀ e, Request.encoded ⟨[0x16, 0x00], 0⟩ = .encoded e →
      (∃ i, decode e = .ok i) ∨ ∃ op, decode e = .error (.unlistedOpcode op)) ∧
    decode ⟨[0x03], 0⟩ = .error (.unlistedOpcode 0x03) :=
  ⟨rfl, rfl, rfl, fun _ h => by cases h; exact .inl ⟨.rfOn, rfl⟩, rfl⟩
theorem witness_UnconstrainedNeverRefuses : (wild zeros).fe.kind = .unconstrained := rfl
theorem witness_RegisterStores (a : Byte) (h : a ∈ [0x00, 0x01, 0x04, 0x12, 0x19]) :
    (wild zeros).Quiet ∧ registerDefined (wild zeros).params a = true ∧ isPlainReg a = true ∧
    ((wild zeros).fe.kind = .reference → a ≠ 0x00) := by
  refine ⟨quiet_wild _, ?_, ?_, fun h => by cases h⟩ <;> revert a <;> decide
/-- A write that changes the command field, and one that keeps it, to SYSTEM_CONFIG and to another register. -/
theorem witness_changesCommand :
    (wild zeros).changesCommand 0x00 0x00000003 ∧ ¬ (wild zeros).changesCommand 0x00 0xFFFFFFF8 ∧
    ¬ (wild zeros).changesCommand 0x04 0x00000003 := by decide
theorem witness_RegisterStores_reference (a : Byte) (h : a ∈ [0x01, 0x04, 0x12, 0x19]) :
    (ref zeros).Quiet ∧ registerDefined (ref zeros).params a = true ∧ isPlainReg a = true ∧
    ((ref zeros).fe.kind = .reference → a ≠ 0x00) := by
  refine ⟨quiet_ref _, ?_, ?_, fun _ => ?_⟩ <;> revert a <;> decide
theorem witness_WriteIrqClearClears : (ref zeros).Quiet ∧ registerDefined (ref zeros).params 0x03 = true :=
  ⟨quiet_ref _, by decide⟩
/-- The idle command, the transceive command, and another value of the field. -/
theorem witness_SystemConfigMovesReference :
    (ref zeros).Quiet ∧ (ref zeros).fe.kind = .reference ∧ registerDefined (ref zeros).params 0x00 = true ∧
    (0x00000040 : Word) &&& (ref zeros).params.cmdMask = (ref zeros).params.cmdIdle ∧
    (0x00000043 : Word) &&& (ref zeros).params.cmdMask = (ref zeros).params.cmdTransceive ∧
    (ref zeros).params.cmdTransceive ≠ (ref zeros).params.cmdIdle ∧
    (0x00000045 : Word) &&& (ref zeros).params.cmdMask ≠ (ref zeros).params.cmdIdle ∧
    (0x00000045 : Word) &&& (ref zeros).params.cmdMask ≠ (ref zeros).params.cmdTransceive :=
  ⟨quiet_ref _, rfl, by decide⟩
/-- FE_REF and another front-end, with masks that change the command field of SYSTEM_CONFIG and that do not. -/
theorem witness_MaskedWriteIsReadModifyWrite :
    (ref zeros).Quiet ∧ (wild zeros).Quiet ∧ (ref zeros).fe.kind = .reference ∧
    registerDefined (wild zeros).params 0x00 = true ∧ isPlainReg 0x00 = true ∧
    (wild zeros).changesCommand 0x00 ((0 : Word) ||| 0x00000003) ∧ ¬ (wild zeros).changesCommand 0x00 ((0 : Word) ||| 0x00000040) ∧
    ¬ (wild zeros).changesCommand 0x00 ((0 : Word) &&& 0x00000003) :=
  ⟨quiet_ref _, quiet_wild _, by decide⟩
theorem witness_StatusWritesComplete :
    (wild zeros).Quiet ∧ (wild zeros).fe.kind = .unconstrained ∧
    (∀ a ∈ [0x02, 0x03, 0x13, 0x1D], registerDefined (wild zeros).params a = true ∧ isPlainReg a = false) ∧
    isStatusReg 0x02 = true ∧ isStatusReg 0x13 = true ∧ isStatusReg 0x1D = true :=
  ⟨quiet_wild _, rfl, by decide⟩
theorem witness_ReadRegisterReads :
    (wild zeros).Quiet ∧ registerDefined (wild zeros).params 0x03 = true ∧ (ref zeros).Quiet ∧
    registerDefined (ref zeros).params 0x1D = true ∧ ((ref zeros).fe.kind = .reference → (0x1D : Byte) ≠ 0x03) :=
  ⟨quiet_wild _, by decide, quiet_ref _, by decide, fun _ => by decide⟩
theorem witness_RegisterRoundTrip :
    (ref zeros).Quiet ∧ registerDefined (ref zeros).params 0x19 = true ∧ isPlainReg 0x19 = true := ⟨quiet_ref _, by decide⟩
theorem witness_UndefinedRegisterRejected :
    registerDefined (ref zeros).params 0x1C = false ∧ registerDefined (ref zeros).params 0xFF = false := by decide
theorem witness_ReferenceRefusesRegisterFrames :
    (ref zeros).Quiet ∧ (ref zeros).fe.kind = .reference ∧ registerDefined (ref zeros).params 0x02 = true ∧
    isStatusReg 0x02 = true ∧ registerDefined (ref zeros).params 0x03 = true ∧ isPlainReg 0x03 = false ∧
    isStatusReg 0x03 = false ∧ (0x02 : Byte) ≠ 0x03 ∧ registerDefined (ref zeros).params 0x19 = true ∧
    isPlainReg 0x19 = true := ⟨quiet_ref _, by decide⟩
/-- FE_REF with BUSY at 1, and with a reset event in the frame, takes a masked write to a next state. -/
theorem witness_ReferenceRefusesRegisterFrames_busy :
    (after (exec (.writeRegisterOrMask 0x19 1)
      { ref zeros with fe := { (ref zeros).fe with busy := true } })).completion = some ⟨.busTimeout .waitReady, .none⟩ ∧
    (after (exec (.writeRegisterAndMask 0x19 1) { ref zeros with resetIn := some 8 })).trace.head? = some .reset := by
  decide +kernel
theorem witness_WriteEepromStores :
    (ref zeros).Quiet ∧ eepromInRange 253 [0x01].length = true ∧ eepromInRange 0 (List.replicate 254 0x01).length = true :=
  ⟨quiet_ref _, by decide +kernel⟩
theorem witness_ReadEepromReads :
    (wild zeros).Quiet ∧ eepromInRange 253 1 = true ∧ eepromInRange 0 254 = true := ⟨quiet_wild _, by decide⟩
theorem witness_EepromRangeChecked : (255 > 254 ∨ 255 + 0 > 254 ∨ 0 = 0) ∧ (253 > 254 ∨ 253 + 2 > 254 ∨ 2 = 0) ∧
    (254 > 254 ∨ 254 + ([] : List Byte).length > 254 ∨ ([] : List Byte).length = 0) := by decide
/-- A front-end in WaitTransmit and one in Idle. -/
theorem witness_SendDataFills :
    (wild { zeros with ts := 1 }).Quiet ∧ (wild { zeros with ts := 1 }).fe.kind = .unconstrained ∧ (wild zeros).Quiet ∧
    1 ≤ (List.replicate 260 (0x26 : Byte)).length ∧ (List.replicate 260 (0x26 : Byte)).length ≤ 260 ∧ 7 ≤ 7 :=
  ⟨quiet_wild _, rfl, quiet_wild _, by decide +kernel⟩
/-- A tag that answers, and no tag. -/
theorem witness_SendDataOnReference :
    (ref (answers [0x44, 0x00])).Quiet ∧ (ref zeros).Quiet ∧ (ref zeros).fe.kind = .reference ∧
    (tagAnswer [0x26] 7 (ref (answers [0x44, 0x00])).fe.store.tag).1 = [0x44, 0x00] ∧
    (tagAnswer [0x26] 7 (ref zeros).fe.store.tag).1 = [] := ⟨quiet_ref _, quiet_ref _, by decide⟩
/-- Answers of 508 and of 509 bytes. -/
theorem witness_SendDataOnReference_long (n : Nat) (h : n ∈ [508, 509]) :
    (ref (answers (List.replicate n 0x44))).Quiet ∧
    (tagAnswer [0x26] 7 (ref (answers (List.replicate n 0x44))).fe.store.tag).1.length = n := by
  refine ⟨quiet_ref _, ?_⟩
  revert n
  decide +kernel
theorem witness_SendDataChecked :
    (([] : List Byte).length = 0) ∧ 260 < (List.replicate 261 (0x00 : Byte)).length ∧
    1 ≤ [(0x26 : Byte)].length ∧ [(0x26 : Byte)].length ≤ 260 ∧ 7 < 8 := by decide +kernel
theorem witness_ReadDataReads :
    let s := ref { zeros with rxbuf := List.replicate 508 0x44, rxStatus := 508 }
    let w := wild { zeros with rxbuf := [0x44], rxStatus := 1 }
    s.Quiet ∧ (s.fe.kind = .reference → 508 ≤ s.fe.store.rxbuf.length) ∧ w.Quiet ∧
    (w.fe.kind = .reference → 2 ≤ w.fe.store.rxbuf.length) ∧ 0 < (lengthField (w.reg 0x13)).toNat :=
  ⟨quiet_ref _, fun _ => by decide +kernel, quiet_wild _, by intro h; exact absurd h (by decide), by decide⟩
theorem witness_ReferenceRefusesReadBeyond :
    (ref zeros).Quiet ∧ (ref zeros).fe.kind = .reference ∧ (1 : Nat) ≤ 508 ∧ (508 : Nat) ≤ 508 ∧
    (ref zeros).fe.store.rxbuf.length < 1 ∧ (ref zeros).fe.store.rxbuf.length < 508 := ⟨quiet_ref _, by decide⟩
theorem witness_ReadDataChecked : ((0 : Nat) = 0 ∨ 508 < 0) ∧ (509 = 0 ∨ 508 < 509) := by decide
theorem witness_LoadRFConfigLoads :
    (ref zeros).Quiet ∧ (wild zeros).Quiet ∧ (ref zeros).fe.kind = .reference ∧ ((0xFF : Byte) = 0xFF ∧ (0xFF : Byte) = 0xFF) :=
  ⟨quiet_ref _, quiet_wild _, rfl, rfl, rfl⟩
/-- A front-end whose own action sets flags after so many frames. -/
def acting (k : Nat) (w : Word) : State :=
  { wild zeros with
    fe := { (wild zeros).fe with inputs := ⟨[], [], [], List.replicate k FeAct.nothing ++ [FeAct.flags w]⟩ } }
/-- The first poll and the last one. -/
theorem witness_own_action (k : Nat) (w : Word) (h : k ∈ [1, 4]) :
    (acting k w).Calm ∧ (acting k w).fe.kind = .unconstrained ∧ (acting k w).params.usesDefined = true ∧
    (acting k w).fe.inputs.acts = List.replicate k FeAct.nothing ++ [FeAct.flags w] ∧ 1 ≤ k ∧
    k ≤ (acting k w).params.nIrqPolls ∧ ((acting k w).reg 0x02).getLsbD 9 = false ∧
    ((acting k w).reg 0x02).getLsbD 8 = false := by
  have hk : 1 ≤ k ∧ k ≤ 4 := by
    revert k
    decide
  exact ⟨⟨rfl, .inr ⟨rfl, rfl⟩, rfl⟩, rfl, rfl, rfl, hk.1, hk.2,
    show (0 : Word).getLsbD 9 = false by decide, show (0 : Word).getLsbD 8 = false by decide⟩
/-- The flag words of SetRFOn and of SetRFOff by an own action. -/
theorem witness_own_action_flags :
    (0x00000200 : Word).getLsbD 9 = true ∧ (0x00000200 : Word).getLsbD 8 = false ∧
    (0x00000100 : Word).getLsbD 8 = true ∧ (0x00000100 : Word).getLsbD 9 = false := by decide
theorem witness_SetRFOnSwitches :
    (ref zeros).Quiet ∧ (ref zeros).params.usesDefined = true ∧ 1 ≤ (ref zeros).params.nIrqPolls ∧
    (ref zeros).fe.kind = .reference ∧ (wild { zeros with irqStatus := 0x00000200 }).Quiet ∧
    ((wild { zeros with irqStatus := 0x00000200 }).reg 0x02).getLsbD 9 = true :=
  ⟨quiet_ref _, by decide, by decide, rfl, quiet_wild _, by decide⟩
theorem witness_SetRFOffSwitches :
    (ref zeros).Quiet ∧ (ref zeros).params.usesDefined = true ∧ 1 ≤ (ref zeros).params.nIrqPolls ∧
    (wild { zeros with irqStatus := 0x00000100 }).Quiet ∧
    ((wild { zeros with irqStatus := 0x00000100 }).reg 0x02).getLsbD 8 = true :=
  ⟨quiet_ref _, by decide, by decide, quiet_wild _, by decide⟩
theorem witness_FieldFlagPollBounded :
    (wild zeros).Quiet ∧ (wild zeros).fe.kind = .unconstrained ∧ (wild zeros).params.usesDefined = true ∧
    ((wild zeros).reg 0x02).getLsbD 9 = false ∧ ((wild zeros).reg 0x02).getLsbD 8 = false :=
  ⟨quiet_wild _, rfl, by decide, by decide, by decide⟩
theorem witness_decoder_operations :
    (withRequest .getIrqStatus (ref zeros)).Quiet ∧ (withRequest .getIrqStatus (ref zeros)).xcvr.xcBusy = false ∧
    registerDefined (ref zeros).params 0x02 = true ∧ registerDefined (ref zeros).params 0x03 = true ∧
    registerDefined (ref zeros).params 0x1D = true ∧ (ref zeros).params.wf = true ∧
    (withRequest (.clearIrqStatus 0x00004007) (ref zeros)).requests = .clearIrqStatus 0x00004007 :: [] ∧
    (withRequest .getTransceiveState (ref zeros)).requests = .getTransceiveState :: [] :=
  ⟨⟨rfl, rfl⟩, by decide⟩
theorem witness_IsIrqAssertedSamples :
    let s := withRequest .isIrqAsserted (wild zeros)
    s.xcvr.xcBusy = false ∧ s.requests = .isIrqAsserted :: [] ∧ s.params.irqFitted = true ∧
    ({ s with params := { s.params with irqFitted := false } } : State).params.irqFitted = false := by decide
/-- The ends of the length ranges: 0, 1, 508, 509, 510, 511. -/
theorem witness_ResponseLengthDecides :
    (lengthField 0xFFFFFE00).toNat = 0 ∧ (lengthField 1).toNat = 1 ∧ (lengthField 508).toNat = 508 ∧
    (lengthField 509).toNat = 509 ∧ (lengthField 510).toNat = 510 ∧ (lengthField 511).toNat = 511 := by decide
/-- The same lengths in a front-end that shows the flag at once, with nothing raised and no actions listed, without a transceive
cycle. -/
theorem witness_ResponseLengthDecides_step (n : Nat) (h : n ∈ [0, 1, 508, 509, 510, 511]) :
    let p := { request [0x22] with classify := false, transceiveCycle := false }
    let s := withRequest (.protocolTransact p) (wild { zeros with irqStatus := 0x00004000, rxStatus := BitVec.ofNat 32 n })
    s.Calm ∧ s.fe.kind = .unconstrained ∧ s.xcvr.xcBusy = false ∧ s.requests = .protocolTransact p :: [] ∧
    p.accepted = true ∧ s.params.wf = true ∧ s.params.usesDefined = true ∧ s.ActsAs (actsUntilPoll s p [0]) ∧
    [(0 : Word)].length = 1 ∧ 1 ≤ s.params.nRespPolls ∧ flagsShown (s.reg 0x02) [0] = [] ++ [0x00004000] ∧
    (0x00004000 : Word).getLsbD 14 = true ∧ (lengthField (s.reg 0x13)).toNat = n ∧ p.classify = false := by
  refine ⟨⟨rfl, .inr ⟨rfl, rfl⟩, rfl⟩, rfl, rfl, rfl, rfl, rfl, rfl, ⟨2, rfl⟩, rfl, show 1 ≤ Params.default.nRespPolls by decide,
    show ((0x00004000 : Word) ||| 0) :: [] = [] ++ [0x00004000] by decide, by decide, ?_, rfl⟩
  revert n
  decide
/-- E17: the flag in the last poll of the window, after one that shows TX and IDLE, with the transmit-ready check; and the same
flags without RX_SOF_DET in a window of two polls. -/
theorem witness_ResponseLengthDecides_window :
    let p := { request [0x22] with classify := false }
    let machine (raised : List Word) : State := withRequest (.protocolTransact p)
      (withActs ([FeAct.nothing, FeAct.nothing, FeAct.state 1, FeAct.nothing] ++ raised.map FeAct.flags)
        (withWindow 2 (wild { zeros with rxStatus := 2 })))
    let s := machine [0x00000006, 0x00004001]
    let t := machine [0x00000006, 0x00000001]
    s.Calm ∧ t.Calm ∧ s.ActsAs (actsUntilPoll s p [0x00000006, 0x00004001]) ∧
    t.ActsAs (actsUntilPoll t p [0x00000006, 0x00000001]) ∧
    s.fe.kind = .unconstrained ∧ s.xcvr.xcBusy = false ∧ s.requests = .protocolTransact p :: [] ∧ p.accepted = true ∧
    s.params.wf = true ∧ s.params.usesDefined = true ∧ s.params.nRespPolls = 2 ∧ t.params.nRespPolls = 2 ∧
    flagsShown (s.reg 0x02) [0x00000006, 0x00004001] = [0x00000006] ++ [0x00004007] ∧
    (∀ v ∈ [(0x00000006 : Word)], v.getLsbD 14 = false) ∧ (0x00004007 : Word).getLsbD 14 = true ∧
    (lengthField (s.reg 0x13)).toNat = 2 ∧
    (∀ v ∈ flagsShown (t.reg 0x02) [0x00000006, 0x00000001], v.getLsbD 14 = false) :=
  ⟨⟨rfl, .inr ⟨rfl, rfl⟩, rfl⟩, ⟨rfl, .inr ⟨rfl, rfl⟩, rfl⟩, ⟨0, rfl⟩, ⟨0, rfl⟩, rfl, rfl, rfl, rfl, rfl, rfl, rfl, rfl,
    show ((0 : Word) ||| 6) :: ((0 ||| 6) ||| 0x00004001) :: [] = [0x00000006] ++ [0x00004007] by decide, by simp, by simp,
    show (lengthField 2).toNat = 2 by decide,
    show ∀ v ∈ [(0 : Word) ||| 6, (0 ||| 6) ||| 1], v.getLsbD 14 = false by simp⟩
/-- The ends of the error-code ranges. -/
theorem witness_ErrorCodesMapped :
    (0xA0 : Byte).toNat = 0xA0 ∧ (0xDF : Byte).toNat ≤ 0xDF ∧
    (0x9F : Byte) ∉ [0x01, 0x02, 0x03, 0x0F, 0x10, 0x11, 0x12, 0x13, 0x14] ∧ (0x9F : Byte).toNat < 0xA0 ∧
    0xDF < (0xE0 : Byte).toNat := by decide
theorem witness_EngineChecksRequest :
    let s := withRequest (.protocolTransact (request [])) (ref zeros)
    s.xcvr.xcBusy = false ∧ s.requests = .protocolTransact (request []) :: [] ∧ (request []).req.length = 0 ∧
    ({ request [0x22] with validBits := 8 } : ProtocolRequest).req.length = 1 := by decide
theorem witness_NoTagEndsNoCard :
    let p := request [0x22]
    let s := withRequest (.protocolTransact p) (ref zeros)
    s.Quiet ∧ s.fe.kind = .reference ∧ s.xcvr.xcBusy = false ∧ s.requests = .protocolTransact p :: [] ∧
    p.accepted = true ∧ s.params.wf = true ∧ s.params.usesDefined = true ∧ s.params.commandsOk = true ∧
    s.fe.store.tag = [] ∧ (s.reg 0x02).getLsbD 14 = false := ⟨⟨rfl, rfl⟩, by decide⟩
theorem witness_TagAnswerClassified :
    let p := request [0x22]
    let s := withRequest (.protocolTransact p) (ref (answers [0x01, 0x10]))
    s.Quiet ∧ s.fe.kind = .reference ∧ s.xcvr.xcBusy = false ∧ s.requests = .protocolTransact p :: [] ∧
    p.accepted = true ∧ s.params.wf = true ∧ s.params.usesDefined = true ∧ s.params.commandsOk = true ∧
    (tagAnswer p.req p.validBits s.fe.store.tag).1 = 0x01 :: [0x10] ∧ [(0x10 : Byte)].length + 1 ≤ 508 ∧
    p.classify = true ∧ (0x01 : Byte).getLsbD 0 = true ∧ (0x08 : Byte).getLsbD 0 = false ∧
    ({ p with classify := false } : ProtocolRequest).classify = false := ⟨⟨rfl, rfl⟩, by decide⟩
/-- A front-end whose own action leaves state 7, and one whose action leaves state 0, as RF_STATUS is read; the first was in
WaitTransmit before, and the controls of the second are On and Off. The first ends so. -/
theorem witness_NotReadyEndsPrecondition :
    let p := request [0x22]
    let q : ProtocolRequest := { p with crcTx := .on, crcRx := .off }
    let machine (p : ProtocolRequest) (k : Nat) (n : BitVec 3) : State :=
      withRequest (.protocolTransact p) (withActs (List.replicate k FeAct.nothing ++ [FeAct.state n]) (wild { zeros with ts := 1 }))
    let s := machine p 2 7
    let t := machine q 4 0
    s.Calm ∧ t.Calm ∧ s.fe.kind = .unconstrained ∧ s.xcvr.xcBusy = false ∧ s.requests = .protocolTransact p :: [] ∧
    step s = .next (after (step s)) ∧ (after (step s)).completion = some ⟨.preconditionViolation 7, .none⟩ ∧
    p.accepted = true ∧ q.accepted = true ∧ s.params.wf = true ∧ s.params.usesDefined = true ∧
    s.params.rigorCheckWaitTransmit = true ∧ p.transceiveCycle = true ∧ s.fe.inputs.acts = actsBeforeCheck s p 7 ∧
    t.fe.inputs.acts = actsBeforeCheck t q 0 ∧ (7 : BitVec 3) ≠ 1 ∧ (0 : BitVec 3) ≠ 1 :=
  ⟨⟨rfl, .inr ⟨rfl, rfl⟩, rfl⟩, ⟨rfl, .inr ⟨rfl, rfl⟩, rfl⟩, rfl, rfl, rfl, rfl, by decide +kernel, by decide⟩
/-- The level at the last sample the bound allows, and one sample later. -/
theorem witness_BusyWaitBounded :
    let s := wild zeros
    let t : State := { s with fe := { s.fe with inputs := ⟨List.replicate 2 (!true) ++ true :: [], [], [], []⟩ } }
    let u : State := { s with fe := { s.fe with inputs := ⟨List.replicate 3 (!true) ++ true :: [], [], [], []⟩ } }
    t.fe.kind = .unconstrained ∧ t.resetIn = none ∧ t.fe.inputs.busy = List.replicate 2 (!true) ++ true :: [] ∧
    2 ≤ t.params.tBusy ∧ u.params.tBusy < 3 := by decide
/-- The first machine for WaitReady, the others for the two later waits, in a write frame and in a read frame. -/
theorem witness_BusyTimeouts :
    let with_ (l : List Bool) : State := { wild zeros with fe := { (wild zeros).fe with inputs := ⟨l, [], [], []⟩ } }
    let one : State := { wild zeros with fe := { (wild zeros).fe with busy := true } }
    let b := (wild zeros).params.tBusy
    one.fe.kind = .unconstrained ∧ one.resetIn = none ∧ one.fe.inputs.busy = [] ∧ one.fe.busy = true ∧
    (with_ (List.replicate (b + 2) false)).fe.inputs.busy = List.replicate (b + 2) false ++ [] ∧
    (with_ (false :: List.replicate (b + 2) true)).fe.inputs.busy = false :: List.replicate (b + 2) true ++ [] ∧
    (with_ (false :: true :: List.replicate (b + 2) false)).fe.inputs.busy =
      false :: true :: List.replicate (b + 2) false ++ [] ∧
    (with_ (false :: true :: false :: List.replicate (b + 2) true)).fe.inputs.busy =
      false :: true :: false :: List.replicate (b + 2) true ++ [] ∧
    paramError one.params .rfOff = none ∧ Instr.rfOff ≠ .switchMode ∧
    paramError one.params (.readData 508) = none ∧ 1 ≤ (encode (.readData 508)).readLen := by decide
/-- B6: the read frame of a ReadRegister, in the machine and in the engine's first exchange with one. -/
theorem witness_BusTimeoutEndsAtOnce :
    let busy (l : List Bool) (r : Request) : State :=
      withRequest r { wild zeros with fe := { (wild zeros).fe with inputs := ⟨l, [], [], []⟩ } }
    let s := busy [false, true, false, false, false, false] (.direct (.readRegister 0x02))
    let e := busy [false, true, false, false, true, true, true, true] (.protocolTransact (request [0x22]))
    let w := busy [true, true, true] .getIrqStatus
    (step s = .next (after (step s)) ∧ (after (step s)).completion = some ⟨.busTimeout .waitBusyAssert, .none⟩) ∧
    (step e = .next (after (step e)) ∧ (after (step e)).completion = some ⟨.busTimeout .waitBusyRelease, .none⟩) ∧
    (step w = .next (after (step w)) ∧ (after (step w)).completion = some ⟨.busTimeout .waitReady, .none⟩) :=
  ⟨⟨rfl, by decide +kernel⟩, ⟨rfl, by decide +kernel⟩, rfl, by decide +kernel⟩
theorem witness_ResetEventAbandons :
    let s : State := { ref zeros with resetIn := some 0 }
    s.resetIn = some 0 ∧ s.xcvr.bus.sel = false ∧ paramError s.params .rfOn = none ∧
    Instr.rfOn ≠ .switchMode ∧ s.xcvr.xcBusy = false ∧ s.requests = [] := by decide
theorem witness_reset_in_operation :
    let s : State := withRequest (.direct .rfOn) { ref zeros with resetIn := some 0 }
    s.requests = .direct .rfOn :: [] ∧ step s = .next (after (step s)) ∧ (after (step s)).completion = none :=
  ⟨rfl, rfl, by decide +kernel⟩
theorem inv_ref : (withRequest (.direct .rfOn) (ref zeros)).Inv :=
  { idle := rfl, rst := rfl, params := rfl, buffers := ⟨by decide, by decide, by decide⟩
    store := ⟨rfl, by decide, rfl, by decide, by decide⟩, bus := ⟨rfl, rfl, rfl, rfl⟩ }
theorem witness_StepKeeps :
    let s := withRequest (.direct .rfOn) (ref zeros)
    s.Inv ∧ BusOk s ∧ s.xcvr.isIdle = true ∧ StoreOk s.fe.store ∧ step s = .next (after (step s)) :=
  ⟨inv_ref, inv_ref.bus, inv_ref.idle, inv_ref.store, rfl⟩
theorem witness_ActivationOfFourByteTag :
    let s := ref { zeros with tag := tag4 0x26 0x04 0x00 0xDE 0xAD 0xBE 0xEF 0x22 0x08 }
    s.Quiet ∧ s.fe.kind = .reference ∧ s.params.wf = true ∧ s.params.usesDefined = true ∧
    s.params.commandsOk = true ∧ s.fe.store.tag = tag4 0x26 0x04 0x00 0xDE 0xAD 0xBE 0xEF 0x22 0x08 ∧
    (0x08 : Byte).getLsbD 2 = false ∧ (0x24 : Byte).getLsbD 2 = true ∧ (0x12 : Byte) ≠ 0x88 :=
  ⟨quiet_ref _, rfl, by decide, by decide, by decide, rfl, by decide, by decide, by decide⟩
theorem witness_ActivationOfSevenByteTag :
    let l := tag4 0x26 0x44 0x00 0x88 0x04 0xA1 0xB2 0x9F 0x04 ++
      [⟨some ([0x95, 0x20], 0), [0xC3, 0xD4, 0xE5, 0xF6, 0x04], false⟩,
        ⟨some ([0x95, 0x70, 0xC3, 0xD4, 0xE5, 0xF6, 0x04], 0), [0x00], false⟩]
    let s := ref { zeros with tag := l }
    s.Quiet ∧ s.fe.kind = .reference ∧ s.params.wf = true ∧ s.params.usesDefined = true ∧
    s.params.commandsOk = true ∧ s.fe.store.tag = l ∧ (0x04 : Byte).getLsbD 2 = true ∧ (0x00 : Byte).getLsbD 2 = false :=
  ⟨quiet_ref _, rfl, by decide, by decide, by decide, rfl, by decide, by decide⟩
/-- A UID, all four flags, and responses one byte too short: no field, and before the UID ends. -/
theorem witness_SystemInfoWalk :
    [0x44, 0x33, 0x22, 0x11, 0x00, 0x01, 0x04, (0xE0 : Byte)].length = 8 ∧
    (∀ i < 4, (0x0F : Byte).getLsbD i = true) ∧ ([0x5A, 0x00, 0x03, 0x1B] : List Byte).length < 1 + 1 + 2 + 1 ∧
    (List.replicate 9 (0x00 : Byte)).length < 10 := by decide

end Sys2Proof.Tests
end

section
/-! SUPPORT. All that a step can do to the parameters, the front-end and the operations at the port, said once: the front-end goes
through the moves that the bus makes it take, and the parameters and the other operations at the port stay. -/

namespace Sys2Proof.Machine

/-! ## The moves of the front-end -/

/-- One change of the front-end in the course of an operation: there are no others (`step_proceeds`). -/
inductive FrontEnd.Move (p : Params) : FrontEnd → FrontEnd → Prop where
  | busySampled {fe : FrontEnd} : Move p fe fe.nextBusy
  | irqSampled {fe : FrontEnd} : Move p fe fe.nextIrq
  | frameOpened {fe : FrontEnd} : Move p fe fe.openFrame
  | byteTaken {fe : FrontEnd} {b : Byte} : Move p fe (fe.takeByte b)
  | byteReturned {fe : FrontEnd} : Move p fe fe.nextReply
  | busyRaised {fe : FrontEnd} : Move p fe fe.raiseBusy
  | busyLowered {fe : FrontEnd} : Move p fe fe.lowerBusy
  | frameProcessed {fe : FrontEnd} {readLen : Nat} : Move p fe (fe.processFrame p readLen)
  | replyDropped {fe : FrontEnd} : Move p fe { fe with reply := [] }
  | frameCut {fe : FrontEnd} : Move p fe fe.cutFrame
  | fieldLost {fe : FrontEnd} : Move p fe fe.fieldUnknown

@[simp] theorem FrontEnd.nextBusy_kind (fe : FrontEnd) : fe.nextBusy.kind = fe.kind := by
  unfold FrontEnd.nextBusy
  split <;> rfl

@[simp] theorem FrontEnd.nextIrq_kind (fe : FrontEnd) : fe.nextIrq.kind = fe.kind := by
  unfold FrontEnd.nextIrq
  split <;> rfl

@[simp] theorem FrontEnd.nextReply_kind (fe : FrontEnd) : fe.nextReply.kind = fe.kind := by
  cases hr : fe.reply <;> cases hk : fe.kind <;> simp [FrontEnd.nextReply, hr, hk]

@[simp] theorem FrontEnd.processFrame_kind (p : Params) (readLen : Nat) (fe : FrontEnd) :
    (fe.processFrame p readLen).kind = fe.kind := by
  unfold FrontEnd.processFrame
  split
  · rfl
  · split
    · exact fe.ownAction_kind
    · rfl

@[simp] theorem FrontEnd.fieldUnknown_kind (fe : FrontEnd) : fe.fieldUnknown.kind = fe.kind := by
  unfold FrontEnd.fieldUnknown
  split <;> rfl

/-- FE_REF stays FE_REF, and no other front-end becomes it (R2, R60). -/
theorem FrontEnd.Move.kind {p : Params} {a b : FrontEnd} (h : FrontEnd.Move p a b) : b.kind = a.kind := by
  cases h with
  | busySampled => exact a.nextBusy_kind
  | irqSampled => exact a.nextIrq_kind
  | byteReturned => exact a.nextReply_kind
  | frameProcessed => exact a.processFrame_kind p _
  | fieldLost => exact a.fieldUnknown_kind
  | frameOpened | byteTaken | busyRaised | busyLowered | replyDropped | frameCut => rfl

/-! ## From one state of an operation to a later one -/

/-- `t` is a later state of the operation that `s` is a state of: the front-end has made moves, and the parameters and the
operations that wait at the port are as they were (R10, R24). -/
structure State.Proceeds (s t : State) : Prop where
  params : t.params = s.params
  requests : t.requests = s.requests
  fe : Relation.ReflTransGen (FrontEnd.Move s.params) s.fe t.fe

theorem State.Proceeds.trans {s t u : State} (h : s.Proceeds t) (h' : t.Proceeds u) : s.Proceeds u :=
  ⟨h'.params.trans h.params, h'.requests.trans h.requests, h.fe.trans (h.params ▸ h'.fe)⟩

/-- What every move of the front-end keeps, an operation keeps. -/
theorem State.Proceeds.keeps {s t : State} (h : s.Proceeds t) {P : FrontEnd → Prop}
    (hP : ∀ a b, FrontEnd.Move s.params a b → P a → P b) (hs : P s.fe) : P t.fe := by
  obtain ⟨-, -, hm⟩ := h
  generalize t.fe = fe at hm ⊢
  induction hm with
  | refl => exact hs
  | tail _ hm ih => exact hP _ _ hm ih

theorem State.Proceeds.kind {s t : State} (h : s.Proceeds t) : t.fe.kind = s.fe.kind :=
  h.keeps (P := fun fe => fe.kind = s.fe.kind) (fun _ _ hm ha => hm.kind.trans ha) rfl

/-- However a piece of an operation that started in `s` comes out, it leaves a later state. -/
abbrev Run.Proceeds {α : Type} (s : State) (m : Run α) : Prop :=
  m.Sat (fun _ t => s.Proceeds t) (fun _ t => s.Proceeds t)

/-- A piece that starts in a later state. -/
theorem Run.Proceeds.since {α : Type} {s t : State} {m : Run α} (h : m.Proceeds t) (hs : s.Proceeds t) : m.Proceeds s :=
  h.mono (fun _ _ => hs.trans) fun _ _ => hs.trans

/-- Two pieces one after the other. -/
theorem Run.Proceeds.andThen {α β : Type} {s : State} {m : Run α} {f : α → State → Run β} (h : m.Proceeds s)
    (hf : ∀ a t, (f a t).Proceeds t) : (m.andThen f).Proceeds s :=
  Run.Sat.andThen h fun a t ht => (hf a t).since ht

theorem Run.Proceeds.map {α β : Type} {s : State} {m : Run α} {f : α → β} (h : m.Proceeds s) : (m.map f).Proceeds s :=
  Run.Sat.map h

/-! ## The bus transport (R130 to R143) -/

theorem pulse_proceeds (s : State) : (pulse s).Proceeds s := by
  refine (pulse_sat s).mono (fun _ t e => ?_) fun _ t e => ?_
  · rw [e]
    exact ⟨rfl, rfl, .refl⟩
  · rw [e.2]
    exact ⟨rfl, rfl, .refl⟩

theorem settle_proceeds (s : State) : (settle s).Proceeds s :=
  (pulse_proceeds s).andThen fun _ _ => ⟨rfl, rfl, .refl⟩

theorem sampleBusy_proceeds (s : State) : (sampleBusy s).Proceeds s :=
  (pulse_proceeds s).andThen fun _ _ => ⟨rfl, rfl, .single .busySampled⟩

theorem raiseBusTimeout_proceeds {α : Type} (cause : BusCause) (s : State) :
    (raiseBusTimeout cause s : Run α).Proceeds s := by
  cases cause with
  | irqPoll => exact ⟨rfl, rfl, .single .fieldLost⟩
  | waitReady => cases hs : s.xcvr.bus.sel <;> simp only [raiseBusTimeout, hs] <;> exact ⟨rfl, rfl, .refl⟩
  | waitBusyAssert | waitBusyRelease =>
      cases hs : s.xcvr.bus.sel <;> simp only [raiseBusTimeout, hs] <;> exact ⟨rfl, rfl, .single .frameCut⟩

theorem waitSamples_proceeds (level : Bool) (cause : BusCause) (n : Nat) :
    ∀ s : State, (waitSamples level cause n s).Proceeds s := by
  induction n with
  | zero =>
      refine fun s => (sampleBusy_proceeds s).andThen fun b t => ?_
      split
      · exact ⟨rfl, rfl, .refl⟩
      · exact raiseBusTimeout_proceeds cause t
  | succ n ih =>
      refine fun s => (sampleBusy_proceeds s).andThen fun b t => ?_
      split
      · exact ⟨rfl, rfl, .refl⟩
      · exact (ih _).since ⟨rfl, rfl, .refl⟩

theorem waitBusy_proceeds (p : BtPhase) (level : Bool) (cause : BusCause) (s : State) :
    (waitBusy p level cause s).Proceeds s :=
  (waitSamples_proceeds level cause _ _).since ⟨rfl, rfl, .refl⟩

theorem assertSelect_proceeds (dir : BtDir) (s : State) : (assertSelect dir s).Proceeds s := by
  refine .since ((pulse_proceeds _).andThen fun _ t => (settle_proceeds _).since ?_) ⟨rfl, rfl, .refl⟩
  cases dir with
  | wr => exact ⟨rfl, rfl, .single .frameOpened⟩
  | rd => exact ⟨rfl, rfl, .refl⟩

theorem sendByte_proceeds (b : Byte) (s : State) : (sendByte b s).Proceeds s :=
  (pulse_proceeds s).andThen fun _ _ => ⟨rfl, rfl, .single .byteTaken⟩

theorem sendBytes_proceeds (bytes : List Byte) : ∀ s : State, (sendBytes bytes s).Proceeds s := by
  induction bytes with
  | nil => exact fun s => ⟨rfl, rfl, .refl⟩
  | cons b rest ih => exact fun s => (sendByte_proceeds b s).andThen fun _ => ih

theorem captureByte_proceeds (s : State) : (captureByte s).Proceeds s :=
  (pulse_proceeds s).andThen fun _ _ => ⟨rfl, rfl, .single .byteReturned⟩

theorem captureBytes_proceeds (n : Nat) : ∀ s : State, (captureBytes n s).Proceeds s := by
  induction n with
  | zero => exact fun s => ⟨rfl, rfl, .refl⟩
  | succ n ih => exact fun s => (captureByte_proceeds s).andThen fun _ => ih

theorem releaseSelect_proceeds (dir : BtDir) (readLen : Nat) (s : State) : (releaseSelect dir readLen s).Proceeds s := by
  refine .since ((pulse_proceeds _).andThen fun _ t => (settle_proceeds _).since ?_) ⟨rfl, rfl, .refl⟩
  cases dir with
  | wr => exact ⟨rfl, rfl, .tail (.single .frameProcessed) .busyLowered⟩
  | rd => exact ⟨rfl, rfl, .tail (.single .replyDropped) .busyLowered⟩

theorem finishFrame_proceeds (dir : BtDir) (readLen : Nat) (s : State) : (finishFrame dir readLen s).Proceeds s :=
  .since ((waitBusy_proceeds _ _ _ _).andThen fun _ t =>
    (releaseSelect_proceeds dir readLen t).andThen fun _ => waitBusy_proceeds _ _ _) ⟨rfl, rfl, .single .busyRaised⟩

theorem writeFrame_proceeds (bytes : List Byte) (readLen : Nat) (s : State) : (writeFrame bytes readLen s).Proceeds s :=
  (assertSelect_proceeds .wr s).andThen fun _ _ =>
    .since ((sendBytes_proceeds bytes _).andThen fun _ => finishFrame_proceeds .wr readLen) ⟨rfl, rfl, .refl⟩

theorem readFrame_proceeds (n : Nat) (s : State) : (readFrame n s).Proceeds s :=
  .since ((assertSelect_proceeds .rd _).andThen fun _ _ =>
    .since ((captureBytes_proceeds n _).andThen fun _ => finishFrame_proceeds .rd n) ⟨rfl, rfl, .refl⟩) ⟨rfl, rfl, .refl⟩

theorem startExchange_proceeds (send : List Byte) (s : State) : (startExchange send s).Proceeds s :=
  (waitBusy_proceeds _ _ _ _).since ⟨rfl, rfl, .refl⟩

theorem exchange_proceeds (send : List Byte) (s : State) : (exchange send s).Proceeds s :=
  (startExchange_proceeds send s).andThen fun _ _ =>
    (writeFrame_proceeds _ 0 _).andThen fun _ _ => ⟨rfl, rfl, .refl⟩

theorem exchangeRead_proceeds (send : List Byte) (n : Nat) (s : State) : (exchangeRead send n s).Proceeds s :=
  (startExchange_proceeds send s).andThen fun _ _ =>
    (writeFrame_proceeds _ n _).andThen fun _ t =>
      (readFrame_proceeds n t).andThen fun _ _ => ⟨rfl, rfl, .refl⟩

theorem checkOperands_proceeds (i : Instr) (s : State) : (checkOperands i s).Proceeds s := by
  cases h : paramError s.params i <;> simp only [checkOperands, h] <;> exact ⟨rfl, rfl, .refl⟩

theorem sendCommand_proceeds (i : Instr) (s : State) : (sendCommand i s).Proceeds s :=
  (checkOperands_proceeds i s).andThen fun _ _ => (exchange_proceeds _ _).since ⟨rfl, rfl, .refl⟩

theorem queryCommand_proceeds (i : Instr) (s : State) : (queryCommand i s).Proceeds s :=
  (checkOperands_proceeds i s).andThen fun _ _ => (exchangeRead_proceeds _ _ _).since ⟨rfl, rfl, .refl⟩

theorem readRegister_proceeds (addr : Byte) (s : State) : (readRegister addr s).Proceeds s :=
  (queryCommand_proceeds _ s).map

/-! ## SetRFOn and SetRFOff (R181, R182), and the status decoder (R190 to R196) -/

theorem pollFlag_proceeds (bit n : Nat) : ∀ s : State, (pollFlag bit n s).Proceeds s := by
  induction n with
  | zero => exact raiseBusTimeout_proceeds .irqPoll
  | succ n ih =>
      refine fun s => (readRegister_proceeds 0x02 s).andThen fun v t => ?_
      split
      · exact ⟨rfl, rfl, .refl⟩
      · exact (ih _).since ⟨rfl, rfl, .refl⟩

theorem switchField_proceeds (i : Instr) (bit : Nat) (s : State) : (switchField i bit s).Proceeds s :=
  (sendCommand_proceeds i s).andThen fun _ _ =>
    .since ((pollFlag_proceeds bit _ _).andThen fun _ _ => .since (sendCommand_proceeds _ _).map ⟨rfl, rfl, .refl⟩)
      ⟨rfl, rfl, .refl⟩

theorem getIrqStatus_proceeds (s : State) : (getIrqStatus s).Proceeds s :=
  (readRegister_proceeds 0x02 s).andThen fun _ _ => ⟨rfl, rfl, .refl⟩

theorem clearIrqStatus_proceeds (mask : Word) (s : State) : (clearIrqStatus mask s).Proceeds s := sendCommand_proceeds _ s

theorem getTransceiveState_proceeds (s : State) : (getTransceiveState s).Proceeds s :=
  (readRegister_proceeds 0x1D s).andThen fun _ _ => ⟨rfl, rfl, .refl⟩

theorem sampleIrq_proceeds (s : State) : (sampleIrq s).Proceeds s := ⟨rfl, rfl, .single .irqSampled⟩

/-! ## The protocol engine (R200 to R223) -/

theorem engineCheck_proceeds (p : ProtocolRequest) (s : State) : (engineCheck p s).Proceeds s :=
  (checkOperands_proceeds _ _).since ⟨rfl, rfl, .refl⟩

theorem crcControl_proceeds (addr : Byte) (c : CrcControl) (s : State) : (crcControl addr c s).Proceeds s := by
  cases c with
  | on => exact sendCommand_proceeds _ s
  | off => exact sendCommand_proceeds _ s
  | keep => exact ⟨rfl, rfl, .refl⟩

theorem crcStage_proceeds (p : ProtocolRequest) (s : State) : (crcStage p s).Proceeds s :=
  (crcControl_proceeds 0x19 p.crcTx s).andThen fun _ t =>
    (crcControl_proceeds 0x12 p.crcRx t).andThen fun _ _ => ⟨rfl, rfl, .refl⟩

theorem startTransceive_proceeds (s : State) : (startTransceive s).Proceeds s :=
  (sendCommand_proceeds _ s).andThen fun _ _ => sendCommand_proceeds _ _

theorem readyCheck_proceeds (s : State) : (readyCheck s).Proceeds s := by
  unfold readyCheck
  split
  · exact (getTransceiveState_proceeds s).map
  · exact ⟨rfl, rfl, .refl⟩

theorem transceiveStage_proceeds (p : ProtocolRequest) (s : State) : (transceiveStage p s).Proceeds s := by
  unfold transceiveStage
  split
  · exact (startTransceive_proceeds s).andThen fun _ => readyCheck_proceeds
  · exact ⟨rfl, rfl, .refl⟩

theorem awaitStart_proceeds (n : Nat) : ∀ s : State, (awaitStart n s).Proceeds s := by
  induction n with
  | zero => exact fun s => ⟨rfl, rfl, .refl⟩
  | succ n ih =>
      refine fun s => (getIrqStatus_proceeds s).andThen fun v t => ?_
      split
      · exact ⟨rfl, rfl, .refl⟩
      · exact (ih _).since ⟨rfl, rfl, .refl⟩

theorem readLength_proceeds (s : State) : (readLength s).Proceeds s :=
  (readRegister_proceeds 0x13 s).andThen fun _ _ => ⟨rfl, rfl, .refl⟩

theorem transmitAndAwait_proceeds (p : ProtocolRequest) (s : State) : (transmitAndAwait p s).Proceeds s := by
  refine (sendCommand_proceeds _ s).andThen fun _ t =>
    .since ((awaitStart_proceeds _ _).andThen fun seen u => ?_) ⟨rfl, rfl, .refl⟩
  cases seen with
  | true => exact (readLength_proceeds u).andThen fun _ _ => ⟨rfl, rfl, .refl⟩
  | false => exact ⟨rfl, rfl, .refl⟩

theorem engineFront_proceeds (p : ProtocolRequest) (s : State) : (engineFront p s).Proceeds s := by
  refine (engineCheck_proceeds p s).andThen fun _ t => (crcStage_proceeds p t).andThen fun _ u =>
    .since ((transceiveStage_proceeds p _).andThen fun bad v => ?_) ⟨rfl, rfl, .refl⟩
  cases bad with
  | some n => exact ⟨rfl, rfl, .refl⟩
  | none => exact transmitAndAwait_proceeds p v

theorem finish_proceeds (c : Completion) (s : State) : (finish c s).Proceeds s :=
  .since ((clearIrqStatus_proceeds engineFlags _).andThen fun _ _ => ⟨rfl, rfl, .refl⟩) ⟨rfl, rfl, .refl⟩

theorem engineBack_proceeds (p : ProtocolRequest) (n : Nat) (s : State) : (engineBack p n s).Proceeds s :=
  (queryCommand_proceeds _ s).andThen fun _ _ => (finish_proceeds _ _).since ⟨rfl, rfl, .refl⟩

theorem engine_proceeds (p : ProtocolRequest) (s : State) : (engine p s).Proceeds s := by
  refine (engineFront_proceeds p s).andThen fun v t => ?_
  cases v with
  | inl o => exact finish_proceeds _ t
  | inr n => exact engineBack_proceeds p n t

/-! ## The end of an operation, and the step -/

theorem State.blockReset_proceeds (s : State) : s.Proceeds s.blockReset := by
  refine ⟨rfl, rfl, ?_⟩
  rw [State.blockReset_fe]
  split
  · exact .single .frameCut
  · exact .refl

theorem State.idleStep_proceeds (s : State) : s.Proceeds s.idleStep := by
  unfold State.idleStep
  split
  · exact ⟨rfl, rfl, .refl⟩
  · exact s.blockReset_proceeds
  · exact ⟨rfl, rfl, .refl⟩

theorem finishRun_proceeds {s : State} {m : Run Completion} (h : m.Proceeds s) : s.Proceeds (finishRun m) := by
  match m, h with
  | .ok c t, h => exact h.trans ⟨rfl, rfl, .refl⟩
  | .stop (.outcome o) t, h => exact h.trans ⟨rfl, rfl, .refl⟩
  | .stop .reset t, h => exact h.trans t.blockReset_proceeds

theorem leaveStage_proceeds (s : State) : s.Proceeds (leaveStage s) := by
  unfold leaveStage
  split <;> exact ⟨rfl, rfl, .refl⟩

theorem finishEngine_proceeds {s : State} {m : Run Completion} (h : m.Proceeds s) : s.Proceeds (finishEngine m) := by
  match m, h with
  | .ok c t, h => exact finishRun_proceeds (m := .ok c t) h
  | .stop (.outcome o) t, h =>
      exact finishRun_proceeds (m := .stop (.outcome o) (leaveStage t)) (h.trans (leaveStage_proceeds t))
  | .stop .reset t, h => exact finishRun_proceeds (m := .stop .reset t) h

/-- An operation that answers a next state answers the one it ran to. -/
theorem eq_of_answer_next {kind : FeKind} {t u : State} (h : answer kind u = .next t) : t = u := by
  cases kind with
  | unconstrained => exact (Host.Outcome.next.inj h).symm
  | reference =>
      cases hr : u.refused <;> simp only [answer, hr] at h
      · exact (Host.Outcome.next.inj h).symm
      · cases h

theorem performOperation_proceeds {body : State → Run Completion} {s t : State} (hb : ∀ u, (body u).Proceeds u)
    (h : performOperation body s = .next t) : s.Proceeds t := by
  rw [eq_of_answer_next h]
  exact finishRun_proceeds ((hb s.accept).since ⟨rfl, rfl, .refl⟩)

theorem endUnsupported_proceeds (s : State) : s.Proceeds (endUnsupported s) := ⟨rfl, rfl, .refl⟩

theorem exec_proceeds {i : Instr} {s t : State} (h : exec i s = .next t) : s.Proceeds t := by
  cases i with
  | writeRegister | writeRegisterOrMask | writeRegisterAndMask | writeEEPROM | sendData | loadRFConfig =>
      exact performOperation_proceeds (fun u => (sendCommand_proceeds _ u).map) h
  | readEEPROM | readData => exact performOperation_proceeds (fun u => (queryCommand_proceeds _ u).map) h
  | readRegister addr => exact performOperation_proceeds (fun u => (readRegister_proceeds addr u).map) h
  | rfOn | rfOff => exact performOperation_proceeds (switchField_proceeds _ _) h
  | switchMode => exact Host.Outcome.next.inj h ▸ endUnsupported_proceeds s

theorem opIsIrqAsserted_proceeds {s t : State} (h : opIsIrqAsserted s = .next t) : s.Proceeds t := by
  unfold opIsIrqAsserted at h
  split at h
  · exact performOperation_proceeds sampleIrq_proceeds h
  · exact Host.Outcome.next.inj h ▸ endUnsupported_proceeds s

theorem runRequest_proceeds {r : Request} {s t : State} (h : runRequest r s = .next t) : s.Proceeds t := by
  cases r with
  | direct i => exact exec_proceeds h
  | encoded e =>
      simp only [runRequest] at h
      split at h
      · exact exec_proceeds h
      · exact Host.Outcome.next.inj h ▸ endUnsupported_proceeds s
      · cases h
  | getIrqStatus => exact performOperation_proceeds (fun u => (getIrqStatus_proceeds u).map) h
  | clearIrqStatus mask => exact performOperation_proceeds (fun u => (clearIrqStatus_proceeds mask u).map) h
  | getTransceiveState => exact performOperation_proceeds (fun u => (getTransceiveState_proceeds u).map) h
  | isIrqAsserted => exact opIsIrqAsserted_proceeds h
  | protocolTransact p =>
      rw [eq_of_answer_next h]
      exact finishEngine_proceeds ((engine_proceeds p s.accept).since ⟨rfl, rfl, .refl⟩)
  | unlisted kind => exact Host.Outcome.next.inj h ▸ endUnsupported_proceeds s

/-- A step takes the operation at the head of the port, if there is one, and proceeds from there. -/
theorem step_proceeds {s t : State} (h : step s = .next t) : { s with requests := s.requests.tail }.Proceeds t := by
  unfold step at h
  split at h
  · cases h
  · split at h
    · next hr =>
        obtain ⟨hp, hq, hfe⟩ := Host.Outcome.next.inj h ▸ s.idleStep_proceeds
        exact ⟨hp, by simpa [hr] using hq, hfe⟩
    · next hr =>
        rw [hr]
        exact runRequest_proceeds h

end Sys2Proof.Machine
end

section
/-! SUPPORT. What every step keeps of the setting in which the block works (R10, R23, R24). -/

namespace Sys2Proof.Machine

/-- Settles O56: an operation only makes the front-end move, and no move changes its kind. -/
theorem stepKeepsSetting : Obligations.StepKeepsSetting := by
  intro s t h
  have hp := step_proceeds h
  exact ⟨hp.params, hp.kind, hp.requests⟩

end Sys2Proof.Machine
end

section
/-! SUPPORT. What the decoder makes of the frames the encoder writes, and which commands fit the block's buffers (R26, R117, R142). -/

namespace Sys2Proof

/-- The six-byte layout gives back the register address and the value written into it (R104 to R106). -/
theorem decodeReg6_le32 (make : Byte → Word → Instr) (op addr : Byte) (v : Word) :
    decodeReg6 make op (addr :: le32 v) 0 = .ok (make addr v) :=
  congrArg (fun w => Except.ok (make addr w)) (unle32_le32 v)

/-- A well-formed command is read back from its encoding (R103 to R115). -/
theorem decode_encode {i : Instr} (h : i.wf = true) : decode (encode i) = .ok i := by
  cases i with
  | writeRegister addr v => exact decodeReg6_le32 .writeRegister 0x00 addr v
  | writeRegisterOrMask addr m => exact decodeReg6_le32 .writeRegisterOrMask 0x01 addr m
  | writeRegisterAndMask addr m => exact decodeReg6_le32 .writeRegisterAndMask 0x02 addr m
  | readRegister addr => rfl
  | writeEEPROM addr data =>
      obtain ⟨ha, h1, h2⟩ := (Instr.wf_writeEEPROM addr data).1 h
      have e : addr % 256 = addr := Nat.mod_eq_of_lt (by omega)
      rw [encode, decode_06]
      simp [decodeWriteEEPROM, h1, h2, e]
  | readEEPROM addr n =>
      obtain ⟨ha, h1, h2⟩ := (Instr.wf_readEEPROM addr n).1 h
      have e : addr % 256 = addr := Nat.mod_eq_of_lt (by omega)
      have e' : n % 256 = n := Nat.mod_eq_of_lt (by omega)
      rw [encode, decode_07]
      simp [decodeReadEEPROM, e, e']
  | sendData bytes validBits =>
      obtain ⟨h1, h2, hb⟩ := (Instr.wf_sendData bytes validBits).1 h
      have e : validBits % 256 = validBits := Nat.mod_eq_of_lt (by omega)
      rw [encode, decode_09]
      simp [decodeSendData, h1, h2, e]
  | readData n => rfl
  | switchMode => rfl
  | loadRFConfig tx rx => rfl
  | rfOn => rfl
  | rfOff => rfl

namespace Machine

/-- Operands that pass the block's check lie in the ranges of their frame fields (R103, R117). -/
theorem wf_of_paramError_none {p : Params} {i : Instr} (h : paramError p i = none) : i.wf = true := by
  cases i with
  | writeEEPROM addr data =>
      have := (eepromInRange_iff _ _).1 ((eepromError_none _ _).1 h)
      exact (Instr.wf_writeEEPROM _ _).2 (by omega)
  | readEEPROM addr n =>
      have := (eepromInRange_iff _ _).1 ((eepromError_none _ _).1 h)
      exact (Instr.wf_readEEPROM _ _).2 (by omega)
  | sendData bytes validBits =>
      obtain ⟨hl, hb⟩ := (sendError_none _ _).1 h
      have hl := (sendLengthOk_iff _).1 hl
      exact (Instr.wf_sendData _ _).2 ⟨hl.1, hl.2, (validBitsOk_iff _).1 hb⟩
  | readData n => exact (Instr.wf_readData n).2 ((readLengthOk_iff n).1 ((readError_none n).1 h))
  | writeRegister | writeRegisterOrMask | writeRegisterAndMask | readRegister | switchMode | loadRFConfig | rfOn | rfOff =>
      rfl

/-- The frames of a well-formed command fit the block's frame buffers (R26). -/
theorem encode_fits {i : Instr} (h : i.wf = true) :
    (encode i).frame.length ≤ 262 ∧ (encode i).readLen ≤ 508 := by
  cases i with
  | writeEEPROM addr data =>
      have := (Instr.wf_writeEEPROM addr data).1 h
      exact ⟨by simp only [encode, List.length_cons]; omega, by simp [encode]⟩
  | readEEPROM addr n =>
      have := (Instr.wf_readEEPROM addr n).1 h
      exact ⟨by simp [encode], by simp only [encode]; omega⟩
  | sendData bytes validBits =>
      have := (Instr.wf_sendData bytes validBits).1 h
      exact ⟨by simp only [encode, List.length_cons]; omega, by simp [encode]⟩
  | readData n => exact ⟨by simp [encode], ((Instr.wf_readData n).1 h).2⟩
  | writeRegister | writeRegisterOrMask | writeRegisterAndMask | readRegister | switchMode | loadRFConfig | rfOn | rfOff =>
      simp [encode]

/-- Every frame but SwitchMode's has a byte after its opcode (R104 to R115). -/
theorem two_le_encode_length {i : Instr} (h : i ≠ .switchMode) : 2 ≤ (encode i).frame.length := by
  cases i with
  | switchMode => exact absurd rfl h
  | _ => simp [encode]

/-- Settles O6: accepted operands are well formed, and the frame of a well-formed command fits and decodes. -/
theorem acceptedFramesFit : Obligations.AcceptedFramesFit := by
  intro p i hp hi
  have hw := wf_of_paramError_none hp
  obtain ⟨hf, hr⟩ := encode_fits hw
  exact ⟨two_le_encode_length hi, hf, hr, decode_encode hw⟩

end Machine

end Sys2Proof
end

section
/-! SUPPORT. The canonical form of the stores and the bounds of the buffers of the front-end (R43, R44, R45), through everything that
happens to it. -/

namespace Sys2Proof

/-- The layout of SendData takes no payload longer than `MAX_SEND` (R110, R118). -/
theorem decodeSendData_length {op : Byte} {rest : List Byte} {n : Nat} {bytes : List Byte} {validBits : Nat}
    (h : decodeSendData op rest n = .ok (.sendData bytes validBits)) : bytes.length ≤ Config.maxSend := by
  cases rest with
  | nil => cases h
  | cons vb payload =>
      simp only [decodeSendData] at h
      split at h
      · next hl =>
          split at h
          · cases h
            exact hl.2
          · cases h
      · cases h

/-- Where a payload comes from a frame, it has the length the layout allows: no other layout gives a SendData. -/
theorem decode_sendData_length {e : Encoding} {bytes : List Byte} {validBits : Nat}
    (h : decode e = .ok (.sendData bytes validBits)) : bytes.length ≤ Config.maxSend := by
  unfold decode at h
  split at h
  · cases h
  · split at h
    case h_7 => exact decodeSendData_length h
    case h_9 | h_13 => cases h
    all_goals
      simp only [decodeReg6, decodeReadRegister, decodeWriteEEPROM, decodeReadEEPROM, decodeReadData, decodeLoadRFConfig,
        decodeRf2] at h
      grind

namespace Machine

/-! ## The reactions to the frames -/

section

variable {f : FeStore}

/-- What is unknown is within its bounds all the same (R52, U2). -/
theorem StoreOk.unknown (d : Nat) (tag : List TagRule) : StoreOk (FeStore.unknown d tag) :=
  { eeprom := rfl, eepromBound := fun _ hc => absurd hc List.not_mem_nil, others := rfl
    txbuf := List.length_take_le _ _, rxbuf := List.length_take_le _ _ }

theorem StoreOk.setReg (h : StoreOk f) (addr : Byte) (v : Word) : StoreOk (f.setReg addr v) := by
  unfold FeStore.setReg
  split
  case h_10 => exact { h with others := Store.rising_insert _ v h.others }
  all_goals exact { h with }

theorem StoreOk.scrambleReg (h : StoreOk f) (addr : Byte) : StoreOk (f.scrambleReg addr) := by
  unfold FeStore.scrambleReg
  split <;> exact { h with }

theorem StoreOk.commandField (h : StoreOk f) (p : Params) (kind : FeKind) (addr : Byte) (old : Word) :
    StoreOk (f.commandField p kind addr old) := by
  unfold FeStore.commandField
  repeat' split
  all_goals exact { h with }

theorem StoreOk.reactWriteRegister (h : StoreOk f) (p : Params) (kind : FeKind) (addr : Byte) (v : Word) :
    StoreOk (f.reactWriteRegister p kind addr v) := by
  unfold FeStore.reactWriteRegister
  split
  · exact { h with }
  · split
    · exact h.scrambleReg addr
    · exact (h.setReg addr v).commandField p kind addr _

theorem StoreOk.reactOrMask (h : StoreOk f) (p : Params) (kind : FeKind) (addr : Byte) (m : Word) :
    StoreOk (f.reactOrMask p kind addr m) := by
  unfold FeStore.reactOrMask
  split
  · exact (h.setReg addr _).commandField p kind addr _
  · exact h.scrambleReg addr

theorem StoreOk.reactAndMask (h : StoreOk f) (p : Params) (kind : FeKind) (addr : Byte) (m : Word) :
    StoreOk (f.reactAndMask p kind addr m) := by
  unfold FeStore.reactAndMask
  split
  · exact (h.setReg addr _).commandField p kind addr _
  · exact h.scrambleReg addr

theorem StoreOk.reactReadRegister (h : StoreOk f) (addr : Byte) : StoreOk (f.reactReadRegister addr) := by
  unfold FeStore.reactReadRegister
  split <;> exact { h with }

theorem StoreOk.reactWriteEEPROM (h : StoreOk f) (addr : Nat) (data : List Byte) : StoreOk (f.reactWriteEEPROM addr data) :=
  { h with
    eeprom := Memory.wf_writeBytes data addr h.eeprom
    eepromBound := Memory.bound_writeBytes data addr h.eepromBound }

theorem StoreOk.storeTx (h : StoreOk f) {bytes : List Byte} (hb : bytes.length ≤ Config.maxSend) (validBits : Nat) :
    StoreOk (f.storeTx bytes validBits) :=
  { h with txbuf := hb }

theorem StoreOk.transmit (h : StoreOk f) {bytes : List Byte} (hb : bytes.length ≤ Config.maxSend) (validBits : Nat) :
    StoreOk (f.transmit bytes validBits) := by
  have hs := h.storeTx hb validBits
  unfold FeStore.transmit
  dsimp only
  split
  · next hr => exact { hs with rxbuf := hr.2 }
  · exact { hs with }

theorem StoreOk.reactSendData (h : StoreOk f) (kind : FeKind) {bytes : List Byte} (hb : bytes.length ≤ Config.maxSend)
    (validBits : Nat) : StoreOk (f.reactSendData kind bytes validBits) := by
  cases kind with
  | reference => exact h.transmit hb validBits
  | unconstrained =>
      have hs := h.storeTx hb validBits
      simp only [FeStore.reactSendData]
      split
      · exact hs
      · split
        · exact { hs with }
        · exact { h with }

theorem StoreOk.reactReadData (h : StoreOk f) (kind : FeKind) (n : Nat) : StoreOk (f.reactReadData kind n) := by
  cases kind with
  | reference => exact h
  | unconstrained => exact { h with rxbuf := List.length_take_le _ _ }

theorem StoreOk.reactLoadRFConfig (h : StoreOk f) (kind : FeKind) (tx rx : Byte) :
    StoreOk (f.reactLoadRFConfig kind tx rx) := by
  cases kind with
  | reference => exact { h with }
  | unconstrained =>
      simp only [FeStore.reactLoadRFConfig]
      split
      · exact { h with }
      · exact { h with others := rfl }

theorem StoreOk.reactRFOn (h : StoreOk f) (kind : FeKind) : StoreOk (f.reactRFOn kind) := by
  cases kind <;> exact { h with }

theorem StoreOk.reactRFOff (h : StoreOk f) (kind : FeKind) : StoreOk (f.reactRFOff kind) := by
  cases kind <;> exact { h with }

/-- The reaction to a frame keeps the form of what the front-end holds. -/
theorem StoreOk.react (h : StoreOk f) (p : Params) (kind : FeKind) {e : Encoding} {i : Instr} (hd : decode e = .ok i) :
    StoreOk (f.react p kind i) := by
  cases i with
  | writeRegister addr v => exact h.reactWriteRegister p kind addr v
  | writeRegisterOrMask addr m => exact h.reactOrMask p kind addr m
  | writeRegisterAndMask addr m => exact h.reactAndMask p kind addr m
  | readRegister addr => exact h.reactReadRegister addr
  | writeEEPROM addr data => exact h.reactWriteEEPROM addr data
  | readEEPROM => exact h
  | sendData bytes validBits => exact h.reactSendData kind (decode_sendData_length hd) validBits
  | readData n => exact h.reactReadData kind n
  | switchMode => exact StoreOk.unknown _ _
  | loadRFConfig tx rx => exact h.reactLoadRFConfig kind tx rx
  | rfOn => exact h.reactRFOn kind
  | rfOff => exact h.reactRFOff kind

end

/-! ## The moves of the front-end -/

theorem StoreOk.applyAct {fe : FrontEnd} (h : StoreOk fe.store) (a : FeAct) : StoreOk (fe.applyAct a).store := by
  cases ha : a.rxbuf with
  | none => exact { h with rxbuf := by simpa [FrontEnd.applyAct, ha] using h.rxbuf }
  | some l => exact { h with rxbuf := by simp [FrontEnd.applyAct, ha] }

theorem StoreOk.ownAction {fe : FrontEnd} (h : StoreOk fe.store) : StoreOk fe.ownAction.store := by
  unfold FrontEnd.ownAction
  split
  · exact h.applyAct _
  · exact h

theorem StoreOk.processFrame {fe : FrontEnd} (h : StoreOk fe.store) (p : Params) (readLen : Nat) :
    StoreOk (fe.processFrame p readLen).store := by
  unfold FrontEnd.processFrame
  split
  · exact h
  · split
    · next hd => exact h.ownAction.react p _ hd
    · exact StoreOk.unknown _ _

/-- Every move of the front-end keeps the form of its stores and the bounds of its buffers. -/
theorem StoreOk.move {p : Params} {a b : FrontEnd} (hm : FrontEnd.Move p a b) (h : StoreOk a.store) : StoreOk b.store := by
  cases hm with
  | busySampled => unfold FrontEnd.nextBusy; split <;> exact h
  | irqSampled => unfold FrontEnd.nextIrq; split <;> exact h
  | byteReturned =>
      cases hr : a.reply <;> cases hk : a.kind <;> simp only [FrontEnd.nextReply, hr, hk] <;> exact { h with }
  | frameProcessed => exact h.processFrame p _
  | frameCut => exact StoreOk.unknown _ _
  | fieldLost => unfold FrontEnd.fieldUnknown; split <;> exact { h with }
  | frameOpened | byteTaken | busyRaised | busyLowered | replyDropped => exact h

/-- Settles O54: a step only makes the front-end move, and every move keeps the form of what it holds. -/
theorem stepKeepsStores : Obligations.StepKeepsStores := by
  intro s t h hst
  exact (step_proceeds hst).keeps (P := fun fe => StoreOk fe.store) (fun _ _ => StoreOk.move) h

end Machine
end Sys2Proof
end

section
/-! SUPPORT. The record of events through an operation (R133, R134, R136, R202): in which phase, with which level of select and in
which stage each piece of an operation leaves the block, that every event was legal when it came, and that the buffers of the
block never hold more than their frames (R26, R29). -/

namespace Sys2Proof.Machine

/-! ## Where the block is -/

/-- The block is in this phase, with this level of select, in this stage of the engine; the events so far say the same and were
legal. `fit` stands for what is known of the state the operation was accepted in: if `RST` was inactive and the buffers fitted
their frames there, they do here. -/
structure BlockAt (fit : Prop) (ph : BtPhase) (sel : Bool) (st : PeStage) (x : Xcvr) (past : List Event) : Prop where
  legal : traceLegal past = true
  phaseSeen : phaseNow past = ph
  selSeen : selectedNow past = sel
  stageSeen : stageNow past = st
  phase : x.bus.phase = ph
  sel : x.bus.sel = sel
  stage : x.pe.stage = st
  rst : fit → x.rst = false
  txf : fit → x.bus.txf.length ≤ 262
  rxf : fit → x.bus.rxf.length ≤ Config.maxRead
  peResp : fit → x.pe.resp.length ≤ Config.maxRead

/-- `BlockAt` of a state. -/
abbrev State.At (s : State) (fit : Prop) (ph : BtPhase) (sel : Bool) (st : PeStage) : Prop :=
  BlockAt fit ph sel st s.xcvr s.trace

/-- What an operation that ends early leaves: after an outcome is raised the bus is idle and the stage as it was (R138); after the
reset event only the record counts, since the block takes the state of R53. -/
def Stopped (fit : Prop) (st : PeStage) (why : Stop) (t : State) : Prop :=
  match why with
  | .outcome _ => t.At fit .idle false st
  | .reset => traceLegal t.trace = true

/-- A piece of an operation leaves the block here, unless it ends the operation. -/
abbrev Run.Leaves {α : Type} (m : Run α) (fit : Prop) (ph : BtPhase) (sel : Bool) (st : PeStage) : Prop :=
  m.Sat (fun _ t => t.At fit ph sel st) (Stopped fit st)

/-- The events that move neither sequencer and leave select as it is. -/
def Event.isStill : Event → Bool
  | .busy _ | .settle | .sent _ | .captured _ _ | .irq _ => true
  | .phase _ | .stage _ | .select _ | .reset => false

section

variable {fit : Prop} {ph : BtPhase} {sel : Bool} {st : PeStage}

theorem BlockAt.event {x : Xcvr} {past : List Event} {e : Event} (h : BlockAt fit ph sel st x past)
    (hs : e.isStill = true) (he : eventLegal e past = true) : BlockAt fit ph sel st x (e :: past) := by
  have hl : traceLegal (e :: past) = true := by rw [traceLegal, he, h.legal]; rfl
  cases e with
  | busy | settle | sent | captured | irq => exact { h with legal := hl }
  | phase | stage | select | reset => cases hs

variable {s : State}

theorem BlockAt.enter (h : s.At fit ph sel st) {q : BtPhase} (hq : ph.mayFollow q = true) :
    (s.enter q).At fit q sel st :=
  { h with
    legal := by simp [traceLegal, eventLegal, h.phaseSeen, hq, h.legal]
    phaseSeen := rfl, phase := rfl }

theorem BlockAt.toStage (h : s.At fit ph sel st) {q : PeStage} (hq : st.mayFollow q = true) :
    (s.stage q).At fit ph sel q :=
  { h with
    legal := by simp [traceLegal, eventLegal, h.stageSeen, hq, h.legal]
    stageSeen := rfl, stage := rfl }

/-- The place of a bus action: what follows it holds, or the reset event lands in a legal record. -/
theorem Run.Sat.afterPulse {β : Type} {f : Unit → State → Run β} {R : β → State → Prop} (h : s.At fit ph sel st)
    (hf : ∀ n, (f () { s with resetIn := n }).Sat R (Stopped fit st)) : ((pulse s).andThen f).Sat R (Stopped fit st) := by
  refine Run.Sat.andThen ((pulse_sat s).mono (fun _ _ => id) fun why t e => ?_) fun _ t e => e ▸ hf t.resetIn
  rw [e.1, e.2]
  exact h.legal

/-! ## The bus transport (R130 to R143) -/

/-- The phases that wait for BUSY (R130 steps 1, 4, 6). -/
def BtPhase.isWait : BtPhase → Bool
  | .waitReady | .waitBusy | .waitDone => true
  | .idle | .settleA | .xfer | .settleD => false

theorem BtPhase.mayFollow_idle_of_isWait (h : ph.isWait = true) : ph.mayFollow .idle = true := by
  cases ph with
  | waitReady | waitBusy | waitDone => rfl
  | idle | settleA | xfer | settleD => cases h

theorem BlockAt.busySampled {x : Xcvr} {past : List Event} (h : BlockAt fit ph sel st x past) (hp : ph.isWait = true)
    (level : Bool) : BlockAt fit ph sel st x (.busy level :: past) := by
  refine h.event rfl ?_
  cases ph with
  | waitReady | waitBusy | waitDone => simp [eventLegal, h.phaseSeen]
  | idle | settleA | xfer | settleD => cases hp

/-- A hold leaves the block where it is, with the bytes captured so far. -/
theorem settle_leaves (h : s.At fit ph sel st) (hp : ph = .settleA ∨ ph = .settleD) :
    (settle s).Sat (fun _ t => t.At fit ph sel st ∧ t.xcvr.bus.rxf = s.xcvr.bus.rxf) (Stopped fit st) := by
  refine Run.Sat.afterPulse h fun n => ?_
  have hs : eventLegal .settle s.trace = true := by simpa [eventLegal, h.phaseSeen] using hp
  exact ⟨{ h.event rfl hs with }, rfl⟩

theorem sampleBusy_leaves (h : s.At fit ph sel st) (hp : ph.isWait = true) :
    (sampleBusy s).Sat (fun level t => t.At fit ph sel st ∧ readyNow t.trace = !level) (Stopped fit st) :=
  Run.Sat.afterPulse h fun _ => ⟨h.busySampled hp _, rfl⟩

/-- A wait for BUSY that runs out: select is released and the bus is idle (R138). -/
theorem raiseBusTimeout_wait_leaves {α : Type} {cause : BusCause} {Q : α → State → Prop} (h : s.At fit ph sel st)
    (hp : ph.isWait = true) (hc : cause ≠ .irqPoll) : (raiseBusTimeout cause s).Sat Q (Stopped fit st) := by
  have hi := BtPhase.mayFollow_idle_of_isWait hp
  have hr : (if s.xcvr.bus.sel then (s.onBus fun b => { b with sel := false }).log (.select false) else s).At
      fit ph false st := by
    rw [h.sel]
    cases sel with
    | false => exact h
    | true =>
        exact { h with
          legal := by simp [traceLegal, eventLegal, h.selSeen, h.legal]
          selSeen := rfl, sel := rfl }
  cases cause with
  | irqPoll => exact absurd rfl hc
  | waitReady | waitBusyAssert | waitBusyRelease => exact hr.enter hi

theorem waitSamples_leaves {cause : BusCause} (level : Bool) (hp : ph.isWait = true) (hc : cause ≠ .irqPoll) (n : Nat) :
    ∀ {s : State}, s.At fit ph sel st →
      (waitSamples level cause n s).Sat (fun _ t => t.At fit ph sel st ∧ readyNow t.trace = !level) (Stopped fit st) := by
  induction n with
  | zero =>
      refine fun h => (sampleBusy_leaves h hp).andThen fun b t ht => ?_
      split
      · next hb => exact hb ▸ ht
      · exact raiseBusTimeout_wait_leaves ht.1 hp hc
  | succ n ih =>
      refine fun h => (sampleBusy_leaves h hp).andThen fun b t ht => ?_
      split
      · next hb => exact hb ▸ ht
      · exact ih { ht.1 with }

/-- A wait for BUSY leaves the block in its phase, and the last sample showed the level. -/
theorem waitBusy_leaves {p : BtPhase} {cause : BusCause} (level : Bool) (h : s.At fit ph sel st)
    (hm : ph.mayFollow p = true) (hp : p.isWait = true) (hc : cause ≠ .irqPoll) :
    (waitBusy p level cause s).Sat (fun _ t => t.At fit p sel st ∧ readyNow t.trace = !level) (Stopped fit st) :=
  waitSamples_leaves level hp hc _ (h.enter hm)

/-- Select is asserted where BUSY was just sampled 0 (R134); the bytes captured so far stay. -/
theorem assertSelect_leaves (dir : BtDir) (h : s.At fit ph false st) (hm : ph.mayFollow .settleA = true)
    (hr : readyNow s.trace = true) :
    (assertSelect dir s).Sat (fun _ t => t.At fit .settleA true st ∧ t.xcvr.bus.rxf = s.xcvr.bus.rxf) (Stopped fit st) := by
  have ha := h.enter hm
  have hl : eventLegal (.select true) (s.enter .settleA).trace = true := by
    simp [eventLegal, phaseNow, selectedNow, readyNow, h.selSeen, hr]
  have hs : BlockAt fit .settleA true st
      { (s.enter .settleA).xcvr with bus := { (s.enter .settleA).xcvr.bus with sel := true, dir := dir, idx := 0 } }
      (.select true :: (s.enter .settleA).trace) :=
    { ha with legal := by rw [traceLegal, hl, ha.legal]; rfl, selSeen := rfl, sel := rfl }
  refine Run.Sat.afterPulse ha fun n => ?_
  cases dir with
  | wr => exact settle_leaves hs (.inl rfl)
  | rd => exact settle_leaves hs (.inl rfl)

theorem sendByte_leaves (b : Byte) (h : s.At fit .xfer true st) : (sendByte b s).Leaves fit .xfer true st := by
  refine Run.Sat.afterPulse h fun n => ?_
  have hs : eventLegal (.sent b) s.trace = true := by simp [eventLegal, h.phaseSeen, h.selSeen]
  exact { h.event rfl hs with }

theorem sendBytes_leaves (bytes : List Byte) : ∀ {s : State}, s.At fit .xfer true st →
    (sendBytes bytes s).Leaves fit .xfer true st := by
  induction bytes with
  | nil => exact fun h => h
  | cons b rest ih => exact fun h => (sendByte_leaves b h).andThen fun _ _ ht => ih ht

/-- A byte captured: `rxf` is one byte longer, which must still fit the frame. -/
theorem captureByte_leaves (h : s.At fit .xfer true st) (hn : s.xcvr.bus.rxf.length + 1 ≤ Config.maxRead) :
    (captureByte s).Sat
      (fun _ t => t.At fit .xfer true st ∧ t.xcvr.bus.rxf.length = s.xcvr.bus.rxf.length + 1) (Stopped fit st) := by
  refine Run.Sat.afterPulse h fun n => ?_
  have hs : eventLegal (.captured 0xFF s.fe.replyByte) s.trace = true := by
    simp [eventLegal, h.phaseSeen, h.selSeen]
  have hl : (s.xcvr.bus.rxf ++ [s.fe.replyByte]).length = s.xcvr.bus.rxf.length + 1 := List.length_append
  exact ⟨{ h.event rfl hs with rxf := fun _ => hl.trans_le hn }, hl⟩

theorem captureBytes_leaves (n : Nat) : ∀ {s : State}, s.At fit .xfer true st →
    s.xcvr.bus.rxf.length + n ≤ Config.maxRead → (captureBytes n s).Leaves fit .xfer true st := by
  induction n with
  | zero => exact fun h _ => h
  | succ n ih =>
      exact fun h hn => (captureByte_leaves h (by omega)).andThen fun _ _ ⟨ht, hl⟩ => ih ht (by omega)

theorem releaseSelect_leaves (dir : BtDir) (readLen : Nat) (h : s.At fit .waitBusy true st) :
    (releaseSelect dir readLen s).Leaves fit .settleD false st := by
  have hd := h.enter (q := .settleD) rfl
  have hl : eventLegal (.select false) (s.enter .settleD).trace = true := hd.selSeen
  have hs : BlockAt fit .settleD false st
      { (s.enter .settleD).xcvr with bus := { (s.enter .settleD).xcvr.bus with sel := false } }
      (.select false :: (s.enter .settleD).trace) :=
    { hd with legal := by rw [traceLegal, hl, hd.legal]; rfl, selSeen := rfl, sel := rfl }
  refine Run.Sat.afterPulse hd fun n => ?_
  cases dir with
  | wr => exact (settle_leaves hs (.inr rfl)).mono (fun _ _ ht => ht.1) fun _ _ => id
  | rd => exact (settle_leaves hs (.inr rfl)).mono (fun _ _ ht => ht.1) fun _ _ => id

/-- Steps 4 to 6 end with BUSY sampled 0. -/
theorem finishFrame_leaves (dir : BtDir) (readLen : Nat) (h : s.At fit .xfer true st) :
    (finishFrame dir readLen s).Sat (fun _ t => t.At fit .waitDone false st ∧ readyNow t.trace = true) (Stopped fit st) :=
  (waitBusy_leaves (s := s.onFe FrontEnd.raiseBusy) true h rfl rfl (by decide)).andThen fun _ _ ht =>
    (releaseSelect_leaves dir readLen ht.1).andThen fun _ _ ht => waitBusy_leaves false ht rfl rfl (by decide)

theorem writeFrame_leaves (bytes : List Byte) (readLen : Nat) (h : s.At fit .waitReady false st)
    (hr : readyNow s.trace = true) :
    (writeFrame bytes readLen s).Sat (fun _ t => t.At fit .waitDone false st ∧ readyNow t.trace = true)
      (Stopped fit st) :=
  (assertSelect_leaves .wr h rfl hr).andThen fun _ _ ht =>
    (sendBytes_leaves bytes (ht.1.enter rfl)).andThen fun _ _ ht => finishFrame_leaves .wr readLen ht

/-- A read frame starts with `rxf` empty and captures what fits it. -/
theorem readFrame_leaves {n : Nat} (hn : n ≤ Config.maxRead) (h : s.At fit .waitDone false st)
    (hr : readyNow s.trace = true) : (readFrame n s).Leaves fit .waitDone false st := by
  have h0 : ((dcReadPhase s).onBus fun r => { r with rxf := [], rxfLen := n }).At fit .waitDone false st :=
    { h with rxf := fun _ => Nat.zero_le _ }
  refine (assertSelect_leaves .rd h0 rfl hr).andThen fun _ t ⟨ht, hx⟩ => ?_
  have hb : (t.enter .xfer).xcvr.bus.rxf.length + n ≤ Config.maxRead := by
    simpa [hx] using hn
  exact (captureBytes_leaves n (ht.enter rfl) hb).andThen fun _ _ ht =>
    (finishFrame_leaves .rd n ht).mono (fun _ _ ht => ht.1) fun _ _ => id

theorem startExchange_leaves {send : List Byte} (hn : send.length ≤ 262) (h : s.At fit .idle false st) :
    (startExchange send s).Sat (fun _ t => t.At fit .waitReady false st ∧ readyNow t.trace = true) (Stopped fit st) :=
  waitBusy_leaves (s := s.onBus fun r => { r with txf := send, txfLen := send.length }) false
    { h with txf := fun _ => hn } rfl rfl (by decide)

theorem exchange_leaves {send : List Byte} (hn : send.length ≤ 262) (h : s.At fit .idle false st) :
    (exchange send s).Leaves fit .idle false st :=
  (startExchange_leaves hn h).andThen fun _ _ ht =>
    (writeFrame_leaves _ 0 ht.1 ht.2).andThen fun _ _ ht => ht.1.enter rfl

/-- What an exchange with a read frame captures fits `rxf`. -/
theorem exchangeRead_leaves {send : List Byte} {n : Nat} (hs : send.length ≤ 262) (hn : n ≤ Config.maxRead)
    (h : s.At fit .idle false st) :
    (exchangeRead send n s).Sat (fun b t => t.At fit .idle false st ∧ (fit → b.length ≤ Config.maxRead))
      (Stopped fit st) :=
  (startExchange_leaves hs h).andThen fun _ _ ht =>
    (writeFrame_leaves _ n ht.1 ht.2).andThen fun _ _ ht =>
      (readFrame_leaves hn ht.1 ht.2).andThen fun _ _ ht => ⟨ht.enter rfl, ht.rxf⟩

/-! ## The direct commands (R117, R156) -/

/-- The operand check goes on with operands that are well formed, and touches nothing. -/
theorem checkOperands_leaves (i : Instr) (h : s.At fit .idle false st) :
    (checkOperands i s).Sat (fun _ t => t.At fit .idle false st ∧ i.wf = true) (Stopped fit st) := by
  cases hp : paramError s.params i <;> simp only [checkOperands, hp]
  · exact ⟨h, wf_of_paramError_none hp⟩
  · exact h

theorem sendCommand_leaves (i : Instr) (h : s.At fit .idle false st) : (sendCommand i s).Leaves fit .idle false st :=
  (checkOperands_leaves i h).andThen fun _ t ⟨ht, hw⟩ =>
    exchange_leaves (s := dcBegin i t) (encode_fits hw).1 { ht with }

theorem queryCommand_leaves (i : Instr) (h : s.At fit .idle false st) :
    (queryCommand i s).Sat (fun b t => t.At fit .idle false st ∧ (fit → b.length ≤ Config.maxRead)) (Stopped fit st) :=
  (checkOperands_leaves i h).andThen fun _ t ⟨ht, hw⟩ =>
    exchangeRead_leaves (s := dcBegin i t) (encode_fits hw).1 (encode_fits hw).2 { ht with }

theorem readRegister_leaves (addr : Byte) (h : s.At fit .idle false st) : (readRegister addr s).Leaves fit .idle false st :=
  Run.Sat.map ((queryCommand_leaves _ h).mono (fun _ _ ht => ht.1) fun _ _ => id)

/-! ## SetRFOn and SetRFOff (R181, R182), and the status decoder (R190 to R196) -/

theorem pollFlag_leaves (bit n : Nat) : ∀ {s : State}, s.At fit .idle false st →
    (pollFlag bit n s).Leaves fit .idle false st := by
  induction n with
  | zero => exact fun h => h
  | succ n ih =>
      refine fun h => (readRegister_leaves 0x02 h).andThen fun v t ht => ?_
      split
      · exact ht
      · exact ih { ht with }

theorem switchField_leaves (i : Instr) (bit : Nat) (h : s.At fit .idle false st) :
    (switchField i bit s).Leaves fit .idle false st :=
  (sendCommand_leaves i h).andThen fun _ t ht =>
    (pollFlag_leaves (s := (dcEnter .poll t).onDc fun d => { d with polls := 0 }) bit _ { ht with }).andThen
      fun _ u hu => Run.Sat.map (sendCommand_leaves (s := dcEnter .clear u) _ { hu with })

theorem getIrqStatus_leaves (h : s.At fit .idle false st) : (getIrqStatus s).Leaves fit .idle false st :=
  (readRegister_leaves 0x02 h).andThen fun _ _ ht => { ht with }

theorem clearIrqStatus_leaves (mask : Word) (h : s.At fit .idle false st) :
    (clearIrqStatus mask s).Leaves fit .idle false st := sendCommand_leaves _ h

theorem getTransceiveState_leaves (h : s.At fit .idle false st) : (getTransceiveState s).Leaves fit .idle false st :=
  (readRegister_leaves 0x1D h).andThen fun _ _ ht => ht

theorem sampleIrq_leaves (h : s.At fit .idle false st) : (sampleIrq s).Leaves fit .idle false st :=
  have hl : eventLegal (.irq s.fe.irqLevel) s.trace = true := by simp [eventLegal, h.phaseSeen]
  h.event rfl hl

/-! ## The protocol engine (R200 to R223) -/

theorem engineCheck_leaves (p : ProtocolRequest) (h : s.At fit .idle false st) :
    (engineCheck p s).Leaves fit .idle false st :=
  (checkOperands_leaves (s := s.onPe fun e => { e with request := p }) _ { h with }).mono (fun _ _ ht => ht.1) fun _ _ => id

theorem crcControl_leaves (addr : Byte) (c : CrcControl) (h : s.At fit .idle false st) :
    (crcControl addr c s).Leaves fit .idle false st := by
  cases c with
  | on => exact sendCommand_leaves _ h
  | off => exact sendCommand_leaves _ h
  | keep => exact h

theorem startTransceive_leaves (h : s.At fit .idle false st) : (startTransceive s).Leaves fit .idle false st :=
  (sendCommand_leaves _ h).andThen fun _ _ ht => sendCommand_leaves _ ht

theorem readyCheck_leaves (h : s.At fit .idle false st) : (readyCheck s).Leaves fit .idle false st := by
  unfold readyCheck
  split
  · exact Run.Sat.map (getTransceiveState_leaves h)
  · exact h

theorem transceiveStage_leaves (p : ProtocolRequest) (h : s.At fit .idle false st) :
    (transceiveStage p s).Leaves fit .idle false st := by
  unfold transceiveStage
  split
  · exact (startTransceive_leaves h).andThen fun _ _ ht => readyCheck_leaves ht
  · exact h

theorem awaitStart_leaves (n : Nat) : ∀ {s : State}, s.At fit .idle false st →
    (awaitStart n s).Leaves fit .idle false st := by
  induction n with
  | zero => exact fun h => h
  | succ n ih =>
      refine fun h => (getIrqStatus_leaves h).andThen fun v t ht => ?_
      split
      · exact ht
      · exact ih { ht with }

theorem readLength_leaves (h : s.At fit .idle false st) : (readLength s).Leaves fit .idle false st :=
  (readRegister_leaves 0x13 h).andThen fun _ _ ht => { ht with }

end

section

variable {fit : Prop} {st : PeStage} {s : State}

/-- An operation of the engine that ends early does so in some stage. -/
def EngineStopped (fit : Prop) (why : Stop) (t : State) : Prop := ∃ st, Stopped fit st why t

theorem Run.Sat.inEngine {α : Type} {m : Run α} {Q : α → State → Prop} (h : m.Sat Q (Stopped fit st)) :
    m.Sat Q (EngineStopped fit) :=
  h.mono (fun _ _ => id) fun _ _ hs => ⟨st, hs⟩

theorem crcStage_leaves (p : ProtocolRequest) (h : s.At fit .idle false .idle) :
    (crcStage p s).Sat (fun _ t => t.At fit .idle false .crcConfigured) (Stopped fit .idle) :=
  (crcControl_leaves 0x19 p.crcTx h).andThen fun _ _ ht =>
    (crcControl_leaves 0x12 p.crcRx ht).andThen fun _ _ ht => ht.toStage rfl

/-- Where the front half of the engine leaves the block: ready to fetch, or in a stage from which the request is finished. -/
def EngineFrontAt (fit : Prop) (v : OpOutcome ⊕ Nat) (t : State) : Prop :=
  match v with
  | .inl _ => ∃ st, PeStage.mayFollow st .classified = true ∧ t.At fit .idle false st
  | .inr _ => t.At fit .idle false .awaitingResponse

theorem EngineFrontAt.of_awaiting {v : OpOutcome ⊕ Nat} (h : s.At fit .idle false .awaitingResponse) :
    EngineFrontAt fit v s := by
  cases v with
  | inl o => exact ⟨_, rfl, h⟩
  | inr n => exact h

theorem transmitAndAwait_leaves (p : ProtocolRequest) (h : s.At fit .idle false .transmitting) :
    (transmitAndAwait p s).Sat (EngineFrontAt fit) (EngineStopped fit) := by
  refine (sendCommand_leaves _ h).inEngine.andThen fun _ t ht => ?_
  have ha := ht.toStage (q := .awaitingResponse) rfl
  have hw : ((t.stage .awaitingResponse).onPe fun e => { e with polls := 0 }).At fit .idle false .awaitingResponse :=
    { ha with }
  refine (awaitStart_leaves _ hw).inEngine.andThen fun seen u hu => ?_
  cases seen with
  | true => exact (readLength_leaves hu).inEngine.andThen fun n _ hv => .of_awaiting hv
  | false => exact EngineFrontAt.of_awaiting (v := .inl .noCard) hu

theorem engineFront_leaves (p : ProtocolRequest) (h : s.At fit .idle false .idle) :
    (engineFront p s).Sat (EngineFrontAt fit) (EngineStopped fit) := by
  refine (engineCheck_leaves p h).inEngine.andThen fun _ _ ht => (crcStage_leaves p ht).inEngine.andThen fun _ t ht => ?_
  have hs := ht.toStage (q := .transmitting) rfl
  refine (transceiveStage_leaves p hs).inEngine.andThen fun bad u hu => ?_
  cases bad with
  | some n => exact ⟨_, rfl, hu⟩
  | none => exact transmitAndAwait_leaves p hu

theorem finish_leaves (c : Completion) (h : s.At fit .idle false st) (hs : st.mayFollow .classified = true) :
    (finish c s).Sat (fun _ t => t.At fit .idle false .idle) (EngineStopped fit) := by
  have hc := h.toStage hs
  have ho : ((s.stage .classified).onPe fun e => { e with outcome := c.outcome }).At fit .idle false .classified :=
    { hc with }
  exact (clearIrqStatus_leaves engineFlags ho).inEngine.andThen fun _ _ ht => ht.toStage rfl

/-- The response delivered is what the fetch captured, so that it fits `pe_resp`. -/
theorem engineBack_leaves (p : ProtocolRequest) (n : Nat) (h : s.At fit .idle false .awaitingResponse) :
    (engineBack p n s).Sat (fun _ t => t.At fit .idle false .idle) (EngineStopped fit) := by
  refine (queryCommand_leaves _ h).inEngine.andThen fun resp t ⟨ht, hr⟩ => ?_
  have hp : (t.onPe fun e => { e with resp := resp }).At fit .idle false .awaitingResponse := { ht with peResp := hr }
  have hf := hp.toStage (q := .responseFetched) rfl
  exact finish_leaves _ { hf with } rfl

theorem engine_leaves (p : ProtocolRequest) (h : s.At fit .idle false .idle) :
    (engine p s).Sat (fun _ t => t.At fit .idle false .idle) (EngineStopped fit) := by
  refine (engineFront_leaves p h).andThen fun v t ht => ?_
  cases v with
  | inl o =>
      obtain ⟨st, hs, ht⟩ := ht
      exact finish_leaves _ ht hs
  | inr n => exact engineBack_leaves p n ht

/-! ## The end of an operation, and the step -/

/-- The block between two operations: idle, and the record agrees with it. -/
structure State.AtRest (fit : Prop) (s : State) : Prop where
  idle : s.xcvr.isIdle = true
  block : s.At fit .idle false .idle

theorem State.AtRest.complete (h : s.At fit .idle false .idle) (c : Completion) : (s.complete c).AtRest fit :=
  ⟨rfl, { h with phase := rfl, sel := rfl, stage := rfl }⟩

/-- The reset event leaves the block at rest whatever it was doing, as long as the record is legal (R53, R290). -/
theorem State.AtRest.blockReset (h : traceLegal s.trace = true) : s.blockReset.AtRest fit :=
  { idle := rfl
    block :=
      { legal := by rw [State.blockReset_trace, traceLegal, h]; rfl
        phaseSeen := rfl, selSeen := rfl, stageSeen := rfl, phase := rfl, sel := rfl, stage := rfl, rst := fun _ => rfl
        txf := fun _ => Nat.zero_le _, rxf := fun _ => Nat.zero_le _, peResp := fun _ => Nat.zero_le _ } }

theorem State.AtRest.idleStep (h : s.AtRest fit) : s.idleStep.AtRest fit := by
  unfold State.idleStep
  split
  · exact h
  · exact .blockReset h.block.legal
  · exact ⟨h.idle, h.block⟩

theorem finishRun_atRest {m : Run Completion} (h : m.Leaves fit .idle false .idle) : (finishRun m).AtRest fit := by
  match m, h with
  | .ok c t, h => exact .complete h c
  | .stop (.outcome o) t, h => exact .complete (s := t) h _
  | .stop .reset t, h => exact .blockReset h

theorem PeStage.mayFollow_idle (h : st ≠ .idle) : st.mayFollow .idle = true := by
  cases st with
  | idle => exact absurd rfl h
  | crcConfigured | transmitting | awaitingResponse | responseFetched | classified => rfl

theorem leaveStage_at (h : s.At fit .idle false st) : (leaveStage s).At fit .idle false .idle := by
  unfold leaveStage
  split
  · next hs => exact (h.stage.symm.trans hs) ▸ h
  · next hs => exact h.toStage (PeStage.mayFollow_idle fun e => hs (h.stage.trans e))

theorem finishEngine_atRest {m : Run Completion}
    (h : m.Sat (fun _ t => t.At fit .idle false .idle) (EngineStopped fit)) : (finishEngine m).AtRest fit := by
  match m, h with
  | .ok c t, h => exact .complete h c
  | .stop (.outcome o) t, ⟨st, h⟩ => exact .complete (leaveStage_at (s := t) h) _
  | .stop .reset t, ⟨st, h⟩ => exact .blockReset h

theorem performOperation_atRest {body : State → Run Completion} {t : State}
    (hb : ∀ u : State, u.At fit .idle false .idle → (body u).Leaves fit .idle false .idle)
    (h : s.At fit .idle false .idle) (ht : performOperation body s = .next t) : t.AtRest fit := by
  rw [eq_of_answer_next ht]
  exact finishRun_atRest (hb s.accept { h with })

theorem endUnsupported_atRest {t : State} (h : s.At fit .idle false .idle)
    (ht : (.next (endUnsupported s) : Host.Outcome State Fault Refusal) = .next t) : t.AtRest fit :=
  Host.Outcome.next.inj ht ▸ .complete h _

theorem exec_atRest {i : Instr} {t : State} (h : s.At fit .idle false .idle) (ht : exec i s = .next t) : t.AtRest fit := by
  cases i with
  | writeRegister | writeRegisterOrMask | writeRegisterAndMask | writeEEPROM | sendData | loadRFConfig =>
      exact performOperation_atRest (fun _ hu => Run.Sat.map (sendCommand_leaves _ hu)) h ht
  | readEEPROM | readData =>
      exact performOperation_atRest
        (fun _ hu => Run.Sat.map ((queryCommand_leaves _ hu).mono (fun _ _ ht => ht.1) fun _ _ => id)) h ht
  | readRegister addr => exact performOperation_atRest (fun _ hu => Run.Sat.map (readRegister_leaves addr hu)) h ht
  | rfOn | rfOff => exact performOperation_atRest (fun _ => switchField_leaves _ _) h ht
  | switchMode => exact endUnsupported_atRest h ht

theorem opIsIrqAsserted_atRest {t : State} (h : s.At fit .idle false .idle) (ht : opIsIrqAsserted s = .next t) :
    t.AtRest fit := by
  unfold opIsIrqAsserted at ht
  split at ht
  · exact performOperation_atRest (fun _ => sampleIrq_leaves) h ht
  · exact endUnsupported_atRest h ht

theorem runRequest_atRest {r : Request} {t : State} (h : s.At fit .idle false .idle) (ht : runRequest r s = .next t) :
    t.AtRest fit := by
  cases r with
  | direct i => exact exec_atRest h ht
  | encoded e =>
      simp only [runRequest] at ht
      split at ht
      · exact exec_atRest h ht
      · exact endUnsupported_atRest h ht
      · cases ht
  | getIrqStatus => exact performOperation_atRest (fun _ hu => Run.Sat.map (getIrqStatus_leaves hu)) h ht
  | clearIrqStatus mask => exact performOperation_atRest (fun _ hu => Run.Sat.map (clearIrqStatus_leaves mask hu)) h ht
  | getTransceiveState => exact performOperation_atRest (fun _ hu => Run.Sat.map (getTransceiveState_leaves hu)) h ht
  | isIrqAsserted => exact opIsIrqAsserted_atRest h ht
  | protocolTransact p =>
      rw [eq_of_answer_next ht]
      exact finishEngine_atRest (engine_leaves p { h with })
  | unlisted kind => exact endUnsupported_atRest h ht

/-- A step takes the block from rest to rest. -/
theorem step_atRest {t : State} (h : s.AtRest fit) (ht : step s = .next t) : t.AtRest fit := by
  unfold step at ht
  split at ht
  · cases ht
  · split at ht
    · exact Host.Outcome.next.inj ht ▸ h.idleStep
    · next rest _ => exact runRequest_atRest (s := { s with requests := rest }) h.block ht

theorem Xcvr.isIdle_iff (x : Xcvr) : x.isIdle = true ↔
    x.bus.sel = false ∧ x.bus.phase = .idle ∧ x.dc.phase = .idle ∧ x.pe.stage = .idle ∧ x.xcBusy = false := by
  simp [Xcvr.isIdle, and_assoc]

/-- A block that is idle, with a record that agrees with it, is at rest. -/
theorem State.AtRest.of_busOk (hi : s.xcvr.isIdle = true) (hb : BusOk s) :
    s.AtRest (s.xcvr.rst = false ∧ BuffersOk s.xcvr) := by
  obtain ⟨hsel, hph, -, hst, -⟩ := (Xcvr.isIdle_iff _).1 hi
  exact
    { idle := hi
      block :=
        { legal := hb.legal, phaseSeen := hb.phase.symm.trans hph, selSeen := hb.sel.symm.trans hsel
          stageSeen := hb.stage.symm.trans hst, phase := hph, sel := hsel, stage := hst, rst := fun h => h.1
          txf := fun h => h.2.txf, rxf := fun h => h.2.rxf, peResp := fun h => h.2.peResp } }

/-- What the record says of a block at rest. -/
theorem State.AtRest.busOk (h : s.AtRest fit) : BusOk s :=
  have hb := h.block
  ⟨hb.legal, hb.sel.trans hb.selSeen.symm, hb.phase.trans hb.phaseSeen.symm, hb.stage.trans hb.stageSeen.symm⟩

/-- Settles O55: a step proceeds from rest to rest, keeps the setting, and the front-end's stores keep their form. -/
theorem stepKeepsInv : Obligations.StepKeepsInv := by
  intro s t h hst
  have hr := step_atRest (.of_busOk h.idle h.bus) hst
  have hb := hr.block
  have hf : s.xcvr.rst = false ∧ BuffersOk s.xcvr := ⟨h.rst, h.buffers⟩
  exact
    { idle := hr.idle
      rst := hb.rst hf
      params := (step_proceeds hst).params ▸ h.params
      buffers := ⟨hb.txf hf, hb.rxf hf, hb.peResp hf⟩
      store := stepKeepsStores s t h.store hst
      bus := hr.busOk }

end

end Sys2Proof.Machine
end

section
/-! SUPPORT. The step of the idle block and the state after reset (R23, R24, R53). -/

namespace Sys2Proof.Machine

/-- A step of an idle block runs the record at the head of the client port, with that record taken off (R23, R24). -/
theorem step_of_idle {s : State} {r : Request} {rest : List Request} (hb : s.xcvr.xcBusy = false)
    (hr : s.requests = r :: rest) : step s = runRequest r { s with requests := rest } := by
  simp [step, hb, hr]

theorem runRequest_encoded {e : Encoding} {i : Instr} (h : decode e = .ok i) (s : State) :
    runRequest (.encoded e) s = exec i s := by
  simp [runRequest, h]

theorem decode_of_decodeTableWord {nbits w : Nat} {i : Instr} (h : decodeTableWord nbits w = some i) :
    decode (tableEncoding nbits w) = .ok i := by
  unfold decodeTableWord at h
  split at h
  · next hd => rw [hd, Option.some.inj h]
  · cases h

/-- Settles O7: the record at the head of the port is run, in each of its forms; a busy block takes none. -/
theorem stepRunsDecodedInstruction : Obligations.StepRunsDecodedInstruction := by
  refine ⟨fun s e i rest hb hr hd => ?_, fun s i rest hb hr => step_of_idle hb hr, fun s nbits w i hb hd => ?_, fun s hb => ?_⟩
  · rw [step_of_idle hb hr, runRequest_encoded hd]
  · rw [step_of_idle (s := s.withFetchWord nbits w) hb rfl, runRequest_encoded (decode_of_decodeTableWord hd)]
    rfl
  · exact if_pos hb

/-- The state after reset meets the invariant: the record of events is empty, and what FE holds is unknown but within bounds. -/
theorem State.reset_inv : State.reset.Inv :=
  { idle := rfl, rst := rfl, params := by decide
    buffers := ⟨Nat.zero_le _, Nat.zero_le _, Nat.zero_le _⟩
    store := StoreOk.unknown 0 []
    bus := ⟨rfl, rfl, rfl, rfl⟩ }

/-- Settles O51: each value is the one R53 gives. -/
theorem resetState : Obligations.ResetState :=
  ⟨rfl, rfl, rfl, rfl, rfl, rfl, rfl, rfl, rfl, rfl, State.reset_inv⟩

end Sys2Proof.Machine
end

section
/-! SUPPORT. What single commands leave in the front-end that answers: a write to IRQ_CLEAR (R34), the writes to SYSTEM_CONFIG and
the transmission of FE_REF (R62 to R64). -/

namespace Sys2Proof.Machine

variable {s t : State}

/-- A register read after a command is a read of what the store became. -/
theorem BlockAround.reg_eq {f : FeStore} (h : BlockAround s t) (hs : t.fe.store = f) (a : Byte) :
    t.reg a = f.regRead s.params s.fe.kind a := by
  rw [State.reg, h.params, h.feKind, hs]

theorem BlockAround.reg_reference {f : FeStore} (h : BlockAround s t) (hk : s.fe.kind = .reference)
    (hs : t.fe.store = f) (a : Byte) : t.reg a = f.regRead s.params .reference a := by
  rw [h.reg_eq hs, hk]

theorem State.reg_reference (hk : s.fe.kind = .reference) (a : Byte) :
    s.reg a = s.fe.store.regRead s.params .reference a := by
  rw [State.reg, hk]

/-! ## IRQ_CLEAR -/

/-- IRQ_STATUS is read at its own address only. -/
theorem FeStore.regRead_irqStatus (p : Params) (kind : FeKind) {a : Byte} (v : Word) (f : FeStore) (h : a ≠ 0x02) :
    ({ f with irqStatus := v } : FeStore).regRead p kind a = f.regRead p kind a := by
  have hn : a.toNat ≠ 0x02 := fun e => h (BitVec.eq_of_toNat_eq e)
  unfold FeStore.regRead
  split <;> simp_all [FeStore.rfStatus]

/-- Settles O12: the reaction to the frame is to clear the named bits, and every other register is read as before. -/
theorem writeIrqClearClears : Obligations.WriteIrqClearClears := by
  intro s m hq hd
  have hw : (Instr.writeRegister 0x03 m).wf = true := rfl
  obtain ⟨t, ht, hdone, hfe⟩ := performOperation_send (i := .writeRegister 0x03 m) hq ((registerError_none _ _).2 hd)
    (fun _ => rfl) (decode_encode hw) rfl
  have hs : t.fe.store = { s.fe.store with irqStatus := s.fe.store.irqStatus &&& ~~~m } := by rw [hfe]; rfl
  refine ⟨t, ht, hdone, ?_, ⟨fun a ha => ?_, fun _ => ?_⟩, ?_⟩
  · exact hdone.around.reg_eq hs 0x02
  · rw [hdone.around.reg_eq hs]
    exact FeStore.regRead_irqStatus _ _ _ _ (by simpa using ha)
  · rw [hs]
  · exact
      { buffers := by constructor <;> rw [hs]
        radio := by constructor <;> rw [hs]
        eeprom := fun a => by rw [State.eepromAt, hs]; rfl }

/-! ## SYSTEM_CONFIG of FE_REF -/

/-- What a frame addressed to SYSTEM_CONFIG of FE_REF makes of its store, where it leaves this value (R63). -/
def FeStore.configured (p : Params) (new : Word) (f : FeStore) : FeStore :=
  FeStore.commandField p .reference 0x00 f.systemConfig { f with systemConfig := new }

section

variable {p : Params} {new : Word} (f : FeStore)

theorem FeStore.configured_idle (h : new &&& p.cmdMask = p.cmdIdle) :
    f.configured p new = { f with systemConfig := new, ts := 0, irqStatus := f.irqStatus ||| 0x00000004 } := by
  simp [FeStore.configured, FeStore.commandField, h]

theorem FeStore.configured_transceive (h : new &&& p.cmdMask = p.cmdTransceive) (hn : p.cmdTransceive ≠ p.cmdIdle) :
    f.configured p new = { f with systemConfig := new, ts := 1 } := by
  simp [FeStore.configured, FeStore.commandField, h, hn]

theorem FeStore.configured_other (hi : new &&& p.cmdMask ≠ p.cmdIdle) (ht : new &&& p.cmdMask ≠ p.cmdTransceive) :
    f.configured p new = { f with systemConfig := new } := by
  simp [FeStore.configured, FeStore.commandField, hi, ht]

/-- All that such a frame can change is SYSTEM_CONFIG, the state and IRQ_STATUS. -/
theorem FeStore.configured_eq (p : Params) (new : Word) :
    ∃ ts irqStatus, f.configured p new = { f with systemConfig := new, ts := ts, irqStatus := irqStatus } := by
  by_cases hi : new &&& p.cmdMask = p.cmdIdle
  · exact ⟨_, _, f.configured_idle hi⟩
  · by_cases ht : new &&& p.cmdMask = p.cmdTransceive
    · exact ⟨_, _, f.configured_transceive ht fun e => hi (ht.trans e)⟩
    · exact ⟨_, _, f.configured_other hi ht⟩

end

/-- SYSTEM_CONFIG, IRQ_STATUS and the state are read at the addresses of SYSTEM_CONFIG, IRQ_STATUS and RF_STATUS only. -/
theorem FeStore.regRead_configured (p : Params) {a : Byte} (new : Word) (f : FeStore) (h : a ∉ [0x00, 0x02, 0x1D]) :
    (f.configured p new).regRead p .reference a = f.regRead p .reference a := by
  simp only [List.mem_cons, List.not_mem_nil, or_false, not_or] at h
  obtain ⟨h0, h2, hd⟩ := h
  have n0 : a.toNat ≠ 0x00 := fun e => h0 (BitVec.eq_of_toNat_eq e)
  have nd : a.toNat ≠ 0x1D := fun e => hd (BitVec.eq_of_toNat_eq e)
  obtain ⟨ts, irqStatus, e⟩ := f.configured_eq p new
  rw [e, ← FeStore.regRead_irqStatus p .reference irqStatus f h2]
  unfold FeStore.regRead
  split <;> simp_all

/-- A frame that leaves this value in SYSTEM_CONFIG of FE_REF: the value, the effect of the command field, and nothing else. -/
theorem systemConfigLeft_of_store {new : Word} (h : BlockAround s t) (hk : s.fe.kind = .reference)
    (hs : t.fe.store = s.fe.store.configured s.params new) : SystemConfigLeft s t new ∧ StoreKept s t := by
  obtain ⟨ts, irqStatus, he⟩ := s.fe.store.configured_eq s.params new
  have hreg := h.reg_reference hk hs
  have hreg' := State.reg_reference hk
  refine ⟨?_, ?_⟩
  · exact
      { value := by rw [hreg, he]; rfl
        idle := fun hi => by rw [hreg, hreg', hs, FeStore.configured_idle _ hi]; exact ⟨rfl, rfl⟩
        transceive := fun ht hn => by rw [hreg, hreg', hs, FeStore.configured_transceive _ ht hn]; exact ⟨rfl, rfl⟩
        other := fun hi ht => by rw [hreg, hreg', hs, FeStore.configured_other _ hi ht]; exact ⟨rfl, rfl⟩
        rfStatus := by rw [hreg, hs]; rfl
        rest := fun a ha => by rw [hreg, hreg']; exact FeStore.regRead_configured _ _ _ ha }
  · exact
      { buffers := by constructor <;> rw [hs, he]
        radio := by constructor <;> rw [hs, he]
        eeprom := fun a => by rw [State.eepromAt, hs, he]; rfl }

/-- A register command without a result addressed to SYSTEM_CONFIG of FE_REF, from the port. -/
theorem performOperation_systemConfig {i : Instr} {new : Word} (hq : s.Quiet) (hk : s.fe.kind = .reference)
    (hp : paramError s.params i = none) (hf : refusedByReference s.fe.store i = none) (hn : (encode i).readLen = 0)
    (hs : s.fe.store.react s.params .reference i = s.fe.store.configured s.params new) :
    ∃ t, performOperation (fun s => (sendCommand i s).map fun _ => Completion.done) s = .next t ∧
      DirectDone s t .none 1 (encode i).frame [] ∧ SystemConfigLeft s t new ∧ StoreKept s t := by
  obtain ⟨t, ht, hdone, hfe⟩ := performOperation_send hq hp (fun _ => hf) (decode_encode (wf_of_paramError_none hp)) hn
  refine ⟨t, ht, hdone, systemConfigLeft_of_store hdone.around hk ?_⟩
  rw [hfe, ← hs, ← hk]
  rfl

/-- Settles O13: the three frames leave the store configured with the value, the OR and the AND. -/
theorem systemConfigMovesReference : Obligations.SystemConfigMovesReference := by
  intro s m hq hk hd
  have hp := (registerError_none s.params 0x00).2 hd
  have hr : s.reg 0x00 = s.fe.store.systemConfig := rfl
  rw [hr]
  exact ⟨performOperation_systemConfig (i := .writeRegister 0x00 m) hq hk hp rfl rfl rfl,
    performOperation_systemConfig (i := .writeRegisterOrMask 0x00 m) hq hk hp rfl rfl rfl,
    performOperation_systemConfig (i := .writeRegisterAndMask 0x00 m) hq hk hp rfl rfl rfl⟩

/-! ## SendData with FE_REF -/

section

variable (f : FeStore) (bytes : List Byte) (validBits : Nat)

/-- The tag answers with 1 to 508 bytes: they are received whole (R64). -/
theorem FeStore.transmit_answered {r : List Byte} (hr : (tagAnswer bytes validBits f.tag).1 = r)
    (h : 1 ≤ r.length ∧ r.length ≤ 508) :
    f.transmit bytes validBits =
      { f.storeTx bytes validBits with
        tag := (tagAnswer bytes validBits f.tag).2
        rxbuf := r
        rxStatus := (f.rxStatus &&& ~~~0x000001FF) ||| BitVec.ofNat 32 r.length
        irqStatus := f.irqStatus ||| 0x00004003
        ts := 0 } := by
  subst hr
  have hirq : f.irqStatus ||| 0x00000002 ||| 0x00004001 = f.irqStatus ||| 0x00004003 := BitVec.or_assoc _ _ _
  rw [FeStore.transmit, if_pos h, ← hirq]
  rfl

/-- No answer, or one above 508 bytes: FE_REF waits (R64, log entry 27). -/
theorem FeStore.transmit_unanswered {r : List Byte} (hr : (tagAnswer bytes validBits f.tag).1 = r)
    (h : r.length = 0 ∨ 508 < r.length) :
    f.transmit bytes validBits =
      { f.storeTx bytes validBits with
        tag := (tagAnswer bytes validBits f.tag).2
        irqStatus := f.irqStatus ||| 0x00000002
        ts := 3 } := by
  subst hr
  have hn : ¬ (1 ≤ (tagAnswer bytes validBits f.tag).1.length ∧ (tagAnswer bytes validBits f.tag).1.length ≤ 508) := by
    omega
  rw [FeStore.transmit, if_neg hn]

/-- All that a transmission can change beside the transmit buffer: the tag, the receive buffer, RX_STATUS, IRQ_STATUS and the
state. -/
theorem FeStore.transmit_eq : ∃ tag rxbuf rxStatus irqStatus ts, f.transmit bytes validBits =
    { f.storeTx bytes validBits with
      tag := tag, rxbuf := rxbuf, rxStatus := rxStatus, irqStatus := irqStatus, ts := ts } := by
  by_cases h : 1 ≤ (tagAnswer bytes validBits f.tag).1.length ∧ (tagAnswer bytes validBits f.tag).1.length ≤ 508
  · exact ⟨_, _, _, _, _, f.transmit_answered bytes validBits rfl h⟩
  · exact ⟨_, _, _, _, _, f.transmit_unanswered bytes validBits rfl (by omega)⟩

/-- Of the registers it changes those three only. -/
theorem FeStore.regRead_transmit (p : Params) {a : Byte} (h : a ∉ [0x02, 0x13, 0x1D]) :
    (f.transmit bytes validBits).regRead p .reference a = f.regRead p .reference a := by
  simp only [List.mem_cons, List.not_mem_nil, or_false, not_or] at h
  obtain ⟨h2, h13, hd⟩ := h
  have n13 : a.toNat ≠ 0x13 := fun e => h13 (BitVec.eq_of_toNat_eq e)
  have nd : a.toNat ≠ 0x1D := fun e => hd (BitVec.eq_of_toNat_eq e)
  obtain ⟨tag, rxbuf, rxStatus, irqStatus, ts, e⟩ := f.transmit_eq bytes validBits
  rw [e, ← FeStore.regRead_irqStatus p .reference irqStatus f h2]
  unfold FeStore.regRead FeStore.storeTx
  split <;> simp_all

end

theorem paramError_sendData {p : Params} {bytes : List Byte} {validBits : Nat} (h1 : 1 ≤ bytes.length)
    (h2 : bytes.length ≤ 260) (hv : validBits ≤ 7) : paramError p (.sendData bytes validBits) = none :=
  (sendError_none _ _).2 ⟨(sendLengthOk_iff _).2 ⟨h1, h2⟩, (validBitsOk_iff _).2 hv⟩

/-- Settles O26: FE_REF transmits, and the two cases of the tag's answer say what it then holds. -/
theorem sendDataOnReference : Obligations.SendDataOnReference := by
  intro s bytes validBits r hq hk h1 h2 hv hr
  have hp := paramError_sendData (p := s.params) h1 h2 hv
  obtain ⟨t, ht, hdone, hfe⟩ := performOperation_send (i := .sendData bytes validBits) hq hp (fun _ => rfl)
    (decode_encode (wf_of_paramError_none hp)) rfl
  have hs : t.fe.store = s.fe.store.transmit bytes validBits := by
    rw [hfe]
    show s.fe.store.reactSendData s.fe.kind bytes validBits = _
    rw [hk]
    rfl
  have hreg := hdone.around.reg_reference hk hs
  have hreg' := State.reg_reference hk
  obtain ⟨tag, rxbuf, rxStatus, irqStatus, ts, he⟩ := s.fe.store.transmit_eq bytes validBits
  refine ⟨t, ht, hdone, by rw [hs, he]; rfl, by rw [hs, he]; rfl, fun h => ?_, fun h => ?_, ⟨fun a ha => ?_, ?_⟩,
    fun a => ?_, by rw [hs, he]; rfl, by rw [hs, he]; rfl, by rw [hs, he]; rfl⟩
  · rw [hreg, hreg, hreg', hreg', hs, FeStore.transmit_answered _ _ _ hr h]
    exact ⟨rfl, rfl, rfl, rfl⟩
  · rw [hreg, hreg, hreg', hreg', hs, FeStore.transmit_unanswered _ _ _ hr h]
    exact ⟨rfl, rfl, rfl, rfl⟩
  · rw [hreg, hreg', FeStore.regRead_transmit _ _ _ _ ha]
  · exact fun h => absurd (by decide) h
  · rw [State.eepromAt, hs, he]
    rfl

end Sys2Proof.Machine
end

section
/-! SUPPORT. What FE_REF refuses, and what it never does (R62, R64, R66): with a command it gives a meaning, an operation runs to a
next state from every state, whatever BUSY is and wherever a reset event lands. -/

namespace Sys2Proof.Machine

/-- Settles O29: the command passes the block's check, and FE_REF has fewer bytes than it asks for. -/
theorem referenceRefusesReadBeyond : Obligations.ReferenceRefusesReadBeyond := by
  intro s n hq hk h1 h2 hn
  have hp : paramError s.params (.readData n) = none := (readError_none n).2 ((readLengthOk_iff n).2 ⟨h1, h2⟩)
  exact performOperation_query_refused hq hk hp (if_pos hn) (decode_encode (wf_of_paramError_none hp))

/-! ## FE_REF with nothing refused -/

/-- FE_REF is attached and has refused nothing so far; the block's `txf` holds this frame, FE_REF has taken these bytes of a write
frame, and it has prepared these for a read frame. -/
structure RefState (p : Params) (txf taken prepared : List Byte) (s : State) : Prop where
  params : s.params = p
  kind : s.fe.kind = .reference
  txf : s.xcvr.bus.txf = txf
  taken : s.fe.frameIn = taken
  prepared : s.fe.reply = prepared
  refused : s.refused = none

/-- A piece of an operation in which FE_REF refuses nothing leaves it so, or ends the operation with nothing refused. -/
abbrev Run.Unrefused {α : Type} (m : Run α) (p : Params) (txf taken prepared : List Byte) : Prop :=
  m.Sat (fun _ t => RefState p txf taken prepared t) (fun _ t => t.refused = none)

section

variable {p : Params} {txf taken prepared : List Byte} {s : State}

/-- The place of a bus action refuses nothing. -/
theorem Run.Sat.afterPulse_ref {β : Type} {f : Unit → State → Run β} {R : β → State → Prop} (h : s.refused = none)
    (hf : ∀ n, (f () { s with resetIn := n }).Sat R fun _ t => t.refused = none) :
    ((pulse s).andThen f).Sat R fun _ t => t.refused = none := by
  refine Run.Sat.andThen ((pulse_sat s).mono (fun _ _ => id) fun why t e => ?_) fun _ t e => e ▸ hf t.resetIn
  rw [e.2]
  exact h

theorem settle_unrefused (h : RefState p txf taken prepared s) : (settle s).Unrefused p txf taken prepared :=
  Run.Sat.afterPulse_ref h.refused fun _ => { h with }

/-- A sample of BUSY leaves FE_REF as it is. -/
theorem sampleBusy_unrefused (h : RefState p txf taken prepared s) : (sampleBusy s).Unrefused p txf taken prepared := by
  have hn : s.fe.nextBusy = s.fe := by simp [FrontEnd.nextBusy, h.kind]
  refine Run.Sat.afterPulse_ref h.refused fun n => ?_
  show RefState p txf taken prepared { s with resetIn := n, fe := s.fe.nextBusy, trace := _ }
  rw [hn]
  exact { h with }

theorem raiseBusTimeout_unrefused {α : Type} (cause : BusCause) {Q : α → State → Prop} (h : s.refused = none) :
    (raiseBusTimeout cause s).Sat Q fun _ t => t.refused = none := by
  cases hs : s.xcvr.bus.sel <;> cases cause <;> simpa [raiseBusTimeout, hs] using h

theorem waitSamples_unrefused (level : Bool) (cause : BusCause) (n : Nat) : ∀ {s : State}, RefState p txf taken prepared s →
    (waitSamples level cause n s).Unrefused p txf taken prepared := by
  induction n with
  | zero =>
      refine fun h => (sampleBusy_unrefused h).andThen fun b t ht => ?_
      split
      · exact ht
      · exact raiseBusTimeout_unrefused cause ht.refused
  | succ n ih =>
      refine fun h => (sampleBusy_unrefused h).andThen fun b t ht => ?_
      split
      · exact ht
      · exact ih { ht with }

theorem waitBusy_unrefused (ph : BtPhase) (level : Bool) (cause : BusCause) (h : RefState p txf taken prepared s) :
    (waitBusy ph level cause s).Unrefused p txf taken prepared :=
  waitSamples_unrefused level cause _ { h with }

/-- For a write frame FE_REF starts to collect. -/
theorem assertSelect_wr_unrefused (h : RefState p txf taken prepared s) : (assertSelect .wr s).Unrefused p txf [] [] :=
  Run.Sat.afterPulse_ref h.refused fun _ => settle_unrefused { h with taken := rfl, prepared := rfl }

theorem assertSelect_rd_unrefused (h : RefState p txf taken prepared s) : (assertSelect .rd s).Unrefused p txf taken prepared :=
  Run.Sat.afterPulse_ref h.refused fun _ => settle_unrefused { h with }

theorem sendBytes_unrefused (bytes : List Byte) : ∀ {taken : List Byte} {s : State}, RefState p txf taken prepared s →
    (sendBytes bytes s).Unrefused p txf (taken ++ bytes) prepared := by
  induction bytes with
  | nil => exact fun h => (List.append_nil _).symm ▸ h
  | cons b rest ih =>
      intro taken s h
      have hb : (sendByte b s).Unrefused p txf (taken ++ [b]) prepared :=
        Run.Sat.afterPulse_ref h.refused fun _ =>
          { h with taken := by simp [FrontEnd.takeByte, h.taken] }
      refine hb.andThen fun _ t ht => ?_
      rw [List.append_cons]
      exact ih ht

/-- FE_REF puts the bytes it has prepared on the bus, and refuses none of them. -/
theorem captureBytes_unrefused (n : Nat) : ∀ {prepared : List Byte} {s : State}, RefState p txf taken prepared s →
    n ≤ prepared.length → (captureBytes n s).Unrefused p txf taken (prepared.drop n) := by
  induction n with
  | zero => exact fun h _ => h
  | succ n ih =>
      intro prepared s h hn
      obtain ⟨b, rest, rfl⟩ := List.exists_cons_of_length_pos (Nat.lt_of_lt_of_le n.succ_pos hn)
      have hb : (captureByte s).Unrefused p txf taken rest := by
        refine Run.Sat.afterPulse_ref h.refused fun n => ?_
        have hr : s.fe.refusesRead = none := FrontEnd.refusesRead_none (by simp [h.prepared])
        have he : s.fe.nextReply = { s.fe with reply := rest } := by simp [FrontEnd.nextReply, h.kind, h.prepared]
        exact
          { params := h.params, kind := s.fe.nextReply_kind.trans h.kind, txf := h.txf
            taken := (congrArg FrontEnd.frameIn he).trans h.taken
            prepared := congrArg FrontEnd.reply he
            refused := (State.note_refused (s := { s with resetIn := n }) _ h.refused).trans hr }
      exact hb.andThen fun _ t ht => ih ht (Nat.le_of_succ_le_succ hn)

end

section

variable {p : Params} {txf taken prepared : List Byte} {s : State} {i : Instr}

/-- A command that passes the block's check, and that FE_REF gives a meaning whatever it holds (R62 to R65). -/
structure AlwaysTaken (p : Params) (i : Instr) : Prop where
  accepted : paramError p i = none
  meant : ∀ f, refusedByReference f i = none

/-- FE_REF processes the frame of such a command: it has prepared the command's answer. -/
theorem releaseSelect_wr_unrefused {n : Nat} (hi : AlwaysTaken p i) (hd : decode ⟨taken, n⟩ = .ok i)
    (h : RefState p txf taken prepared s) :
    (releaseSelect .wr n s).Sat (fun _ t => ∃ f : FeStore, RefState p txf [] (f.answer p .reference i) t)
      fun _ t => t.refused = none := by
  have hd' : decode ⟨s.fe.frameIn, n⟩ = .ok i := by rw [h.taken]; exact hd
  have hc : s.fe.refusesCommand s.params i = none :=
    FrontEnd.refusesCommand_none (h.params ▸ hi.accepted) fun _ => hi.meant _
  have hr : s.fe.refusesFrame s.params n = none := (FrontEnd.refusesFrame_eq s.params hd').trans hc
  have hp : (s.fe.processFrame s.params n).lowerBusy = s.fe.ownAction.answered s.params i :=
    FrontEnd.processFrame_answered s.params hd' hc
  have hk : s.fe.ownAction.kind = .reference := s.fe.ownAction_kind.trans h.kind
  refine Run.Sat.afterPulse_ref (s := s.enter .settleD) h.refused fun k => ?_
  refine (settle_unrefused (p := p) (txf := txf) (taken := [])
    (prepared := s.fe.ownAction.store.answer p .reference i) ?_).mono (fun _ t ht => ⟨_, ht⟩) fun _ _ => id
  exact
    { params := h.params
      kind := (congrArg FrontEnd.kind hp).trans hk
      txf := h.txf
      taken := congrArg FrontEnd.frameIn hp
      prepared := (congrArg FrontEnd.reply hp).trans (by rw [FrontEnd.answered, FrontEnd.react, hk, h.params])
      refused := (State.note_refused _ (by exact h.refused)).trans hr }

theorem releaseSelect_rd_unrefused (n : Nat) (h : RefState p txf taken prepared s) :
    (releaseSelect .rd n s).Unrefused p txf taken [] :=
  Run.Sat.afterPulse_ref (s := s.enter .settleD) h.refused fun _ => settle_unrefused { h with prepared := rfl }

theorem writeFrame_unrefused {bytes : List Byte} {n : Nat} (hi : AlwaysTaken p i) (hd : decode ⟨bytes, n⟩ = .ok i)
    (h : RefState p txf taken prepared s) :
    (writeFrame bytes n s).Sat (fun _ t => ∃ f : FeStore, RefState p txf [] (f.answer p .reference i) t)
      fun _ t => t.refused = none :=
  (assertSelect_wr_unrefused h).andThen fun _ t ht =>
    (sendBytes_unrefused (s := t.enter .xfer) bytes { ht with }).andThen fun _ u hu =>
      (waitBusy_unrefused (s := u.onFe FrontEnd.raiseBusy) _ _ _ { hu with }).andThen fun _ _ hv =>
        (releaseSelect_wr_unrefused hi hd hv).andThen fun _ _ ⟨f, hw⟩ =>
          (waitBusy_unrefused _ _ _ hw).mono (fun _ _ hx => ⟨f, hx⟩) fun _ _ => id

theorem readFrame_unrefused (h : RefState p txf taken prepared s) :
    (readFrame prepared.length s).Sat (fun _ t => t.refused = none) fun _ t => t.refused = none := by
  have h0 : RefState p txf taken prepared
      ((dcReadPhase s).onBus fun r => { r with rxf := [], rxfLen := prepared.length }) := { h with }
  exact (assertSelect_rd_unrefused h0).andThen fun _ t ht =>
    (captureBytes_unrefused (s := t.enter .xfer) _ { ht with } (Nat.le_refl _)).andThen fun _ u hu =>
      (waitBusy_unrefused (s := u.onFe FrontEnd.raiseBusy) _ _ _ { hu with }).andThen fun _ _ hv =>
        (releaseSelect_rd_unrefused _ hv).andThen fun _ _ hw =>
          (waitBusy_unrefused _ _ _ hw).mono (fun _ _ hx => hx.refused) fun _ _ => id

theorem startExchange_unrefused (send : List Byte) (h : RefState p txf taken prepared s) :
    (startExchange send s).Unrefused p send taken prepared :=
  waitBusy_unrefused (s := s.onBus fun r => { r with txf := send, txfLen := send.length }) _ _ _ { h with txf := rfl }

theorem checkOperands_of_accepted (h : paramError s.params i = none) : checkOperands i s = .ok () s := by
  simp [checkOperands, h]

theorem sendCommand_unrefused (hi : AlwaysTaken p i) (hn : (encode i).readLen = 0) (h : RefState p txf taken prepared s) :
    (sendCommand i s).Sat (fun _ t => t.refused = none) fun _ t => t.refused = none := by
  have hd : decode ⟨(encode i).frame, 0⟩ = .ok i := hn ▸ decode_encode (wf_of_paramError_none hi.accepted)
  rw [sendCommand, checkOperands_of_accepted (h.params ▸ hi.accepted), Run.ok_andThen]
  exact (startExchange_unrefused (s := dcBegin i s) _ { h with }).andThen fun _ t ht =>
    (writeFrame_unrefused hi (ht.txf ▸ hd) ht).andThen fun _ _ ⟨_, hu⟩ => hu.refused

/-- The same of a command with a result, where FE_REF prepares as many bytes as the block reads. -/
theorem queryCommand_unrefused (hi : AlwaysTaken p i) (hn : ∀ f : FeStore, (f.answer p .reference i).length = (encode i).readLen)
    (h : RefState p txf taken prepared s) :
    (queryCommand i s).Sat (fun _ t => t.refused = none) fun _ t => t.refused = none := by
  have hd := decode_encode (wf_of_paramError_none hi.accepted)
  rw [queryCommand, checkOperands_of_accepted (h.params ▸ hi.accepted), Run.ok_andThen]
  exact (startExchange_unrefused (s := dcBegin i s) _ { h with }).andThen fun _ t ht =>
    (writeFrame_unrefused hi (ht.txf ▸ hd) ht).andThen fun _ u ⟨f, hu⟩ =>
      (hn f ▸ readFrame_unrefused hu).andThen fun _ _ hv => hv

end

/-! ## The register frames (R62) -/

section

variable {s : State} {i : Instr}

/-- An operation in which FE_REF has refused nothing runs to a next state. -/
theorem performOperation_unrefused {body : State → Run Completion}
    (h : (body s.accept).Sat (fun _ t => t.refused = none) fun _ t => t.refused = none) :
    ∃ t, performOperation body s = .next t := by
  have hr : (finishRun (body s.accept)).refused = none := by
    match body s.accept, h with
    | .ok _ _, h => exact h
    | .stop (.outcome _) _, h => exact h
    | .stop .reset _, h => exact h
  exact ⟨_, answer_next hr⟩

theorem RefState.accept (hk : s.fe.kind = .reference) :
    RefState s.params s.xcvr.bus.txf s.fe.frameIn s.fe.reply s.accept :=
  ⟨rfl, hk, rfl, rfl, rfl, rfl⟩

theorem performOperation_send_next (hk : s.fe.kind = .reference) (hi : AlwaysTaken s.params i)
    (hn : (encode i).readLen = 0) (f : Unit → Completion) :
    ∃ t, performOperation (fun s => (sendCommand i s).map f) s = .next t :=
  performOperation_unrefused (Run.Sat.map (sendCommand_unrefused hi hn (.accept hk)))

theorem execReadRegister_next {addr : Byte} (hk : s.fe.kind = .reference) (hi : AlwaysTaken s.params (.readRegister addr)) :
    ∃ t, execReadRegister addr s = .next t :=
  performOperation_unrefused (Run.Sat.map (Run.Sat.map (queryCommand_unrefused hi (fun _ => rfl) (.accept hk))))

end

/-- Of the commands that pass the block's check, FE_REF refuses those it gives no meaning. -/
theorem FrontEnd.refusesCommand_reference {p : Params} {i : Instr} {fe : FrontEnd} (hk : fe.kind = .reference)
    (hp : paramError p i = none) : fe.refusesCommand p i = refusedByReference fe.store i := by
  simp [FrontEnd.refusesCommand, hk, hp]

/-- ReadRegister of IRQ_CLEAR is refused by FE_REF. -/
theorem execReadRegister_refused {s : State} {addr : Byte} (hq : s.Quiet) (hk : s.fe.kind = .reference)
    (hd : registerDefined s.params addr = true) (ha : addr = 0x03) :
    execReadRegister addr s = .refused (.frontEndRefusesRead addr) := by
  have hp : paramError s.params (.readRegister addr) = none := (registerError_none _ _).2 hd
  refine performOperation_refused hk (Run.Sat.map (Run.Sat.map ?_))
  exact queryCommand_refused (s := s.accept) ⟨hq.calm.busy, hq.calm.lines, hq.noReset⟩ rfl hp
    ((FrontEnd.refusesCommand_reference hk hp).trans (if_pos ha)) rfl

/-- Settles O21: the frames FE_REF gives no meaning are refused, and all the others are taken in every state. -/
theorem referenceRefusesRegisterFrames : Obligations.ReferenceRefusesRegisterFrames := by
  intro s addr x hk hd
  have hp : registerError s.params addr = none := (registerError_none _ _).2 hd
  refine ⟨fun hq => ⟨fun ha => ?_, fun ha => ⟨?_, ?_⟩, fun ha => ?_⟩, fun ha => ?_, fun ha => ?_, fun ha => ?_,
    fun ha => ?_⟩
  · exact performOperation_send_refused (i := .writeRegister addr x) hq hk hp (if_pos ha) (decode_encode rfl) rfl
  · exact performOperation_send_refused (i := .writeRegisterOrMask addr x) hq hk hp (if_neg (by simp [ha]))
      (decode_encode rfl) rfl
  · exact performOperation_send_refused (i := .writeRegisterAndMask addr x) hq hk hp (if_neg (by simp [ha]))
      (decode_encode rfl) rfl
  · exact execReadRegister_refused hq hk hd ha
  · exact performOperation_send_next (i := .writeRegister addr x) hk ⟨hp, fun _ => if_neg (by simp [ha])⟩ rfl _
  · exact performOperation_send_next (i := .writeRegisterOrMask addr x) hk ⟨hp, fun _ => if_pos ha⟩ rfl _
  · exact performOperation_send_next (i := .writeRegisterAndMask addr x) hk ⟨hp, fun _ => if_pos ha⟩ rfl _
  · exact execReadRegister_next hk ⟨hp, fun _ => if_neg ha⟩

end Sys2Proof.Machine
end

section
/-! SUPPORT. What the decoder answers, said once: a frame that decodes has its opcode's layout (R104 to R115, R118), and only an
opcode outside the map of R101 is refused as unlisted (R116). -/

namespace Sys2Proof

/-! ## The layouts -/

/-- The encodings the layouts of R104 to R115 admit, with the command each stands for. SwitchMode has no layout (R112): its opcode
alone asks for it. -/
inductive Layout : Encoding → Instr → Prop where
  | writeRegister (addr b0 b1 b2 b3 : Byte) :
      Layout ⟨[0x00, addr, b0, b1, b2, b3], 0⟩ (.writeRegister addr (unle32 [b0, b1, b2, b3]))
  | writeRegisterOrMask (addr b0 b1 b2 b3 : Byte) :
      Layout ⟨[0x01, addr, b0, b1, b2, b3], 0⟩ (.writeRegisterOrMask addr (unle32 [b0, b1, b2, b3]))
  | writeRegisterAndMask (addr b0 b1 b2 b3 : Byte) :
      Layout ⟨[0x02, addr, b0, b1, b2, b3], 0⟩ (.writeRegisterAndMask addr (unle32 [b0, b1, b2, b3]))
  | readRegister (addr : Byte) : Layout ⟨[0x04, addr], 4⟩ (.readRegister addr)
  | writeEEPROM (addr : Byte) {data : List Byte} (h : 1 ≤ data.length ∧ data.length ≤ 254) :
      Layout ⟨0x06 :: addr :: data, 0⟩ (.writeEEPROM addr.toNat data)
  | readEEPROM (addr length : Byte) : Layout ⟨[0x07, addr, length], length.toNat⟩ (.readEEPROM addr.toNat length.toNat)
  | sendData (validBits : Byte) {payload : List Byte} (h : 1 ≤ payload.length ∧ payload.length ≤ 260) :
      Layout ⟨0x09 :: validBits :: payload, 0⟩ (.sendData payload validBits.toNat)
  | readData (n : Nat) : Layout ⟨[0x0A, 0x00], n⟩ (.readData n)
  | switchMode (rest : List Byte) (n : Nat) : Layout ⟨0x0B :: rest, n⟩ .switchMode
  | loadRFConfig (tx rx : Byte) : Layout ⟨[0x11, tx, rx], 0⟩ (.loadRFConfig tx rx)
  | rfOn : Layout ⟨[0x16, 0x00], 0⟩ .rfOn
  | rfOff : Layout ⟨[0x17, 0x00], 0⟩ .rfOff

/-- An answer of the decoder to a frame whose opcode is listed: a command as `ok` says, or a refusal of what follows the opcode. -/
def AnswersListed (ok : Instr → Prop) : Except Reject Instr → Prop
  | .ok i => ok i
  | .error (.unlistedOpcode _) => False
  | .error _ => True

section

variable {op : Byte} {rest : List Byte} {n : Nat}

theorem decodeReg6_answers {make : Byte → Word → Instr}
    (h : ∀ addr b0 b1 b2 b3, Layout ⟨[op, addr, b0, b1, b2, b3], 0⟩ (make addr (unle32 [b0, b1, b2, b3]))) :
    AnswersListed (Layout ⟨op :: rest, n⟩) (decodeReg6 make op rest n) := by
  unfold decodeReg6
  split
  · split
    · next hn => exact hn ▸ h ..
    · trivial
  · trivial

theorem decodeReadRegister_answers :
    AnswersListed (Layout ⟨0x04 :: rest, n⟩) (decodeReadRegister 0x04 rest n) := by
  unfold decodeReadRegister
  split
  · split
    · next hn => exact hn ▸ .readRegister _
    · trivial
  · trivial

theorem decodeWriteEEPROM_answers :
    AnswersListed (Layout ⟨0x06 :: rest, n⟩) (decodeWriteEEPROM 0x06 rest n) := by
  unfold decodeWriteEEPROM
  split
  · trivial
  · split
    · next hl =>
        split
        · next hn => exact hn ▸ .writeEEPROM _ hl
        · trivial
    · trivial

theorem decodeReadEEPROM_answers :
    AnswersListed (Layout ⟨0x07 :: rest, n⟩) (decodeReadEEPROM 0x07 rest n) := by
  unfold decodeReadEEPROM
  split
  · split
    · next hn =>
        subst hn
        exact .readEEPROM _ _
    · trivial
  · trivial

theorem decodeSendData_answers :
    AnswersListed (Layout ⟨0x09 :: rest, n⟩) (decodeSendData 0x09 rest n) := by
  unfold decodeSendData
  split
  · trivial
  · split
    · next hl =>
        split
        · next hn => exact hn ▸ .sendData _ hl
        · trivial
    · trivial

theorem decodeReadData_answers :
    AnswersListed (Layout ⟨0x0A :: rest, n⟩) (decodeReadData 0x0A rest n) := by
  unfold decodeReadData
  split
  · split
    · next hz => exact hz ▸ .readData _
    · trivial
  · trivial

theorem decodeLoadRFConfig_answers :
    AnswersListed (Layout ⟨0x11 :: rest, n⟩) (decodeLoadRFConfig 0x11 rest n) := by
  unfold decodeLoadRFConfig
  split
  · split
    · next hn => exact hn ▸ .loadRFConfig _ _
    · trivial
  · trivial

theorem decodeRf2_answers {i : Instr} (h : Layout ⟨[op, 0x00], 0⟩ i) :
    AnswersListed (Layout ⟨op :: rest, n⟩) (decodeRf2 i op rest n) := by
  unfold decodeRf2
  split
  · split
    · next hz =>
        split
        · next hn => exact hz ▸ hn ▸ h
        · trivial
    · trivial
  · trivial

/-! ## The opcode map -/

/-- The opcodes of R101. -/
def listedOpcodes : List Byte := [0x00, 0x01, 0x02, 0x04, 0x06, 0x07, 0x09, 0x0A, 0x0B, 0x11, 0x16, 0x17]

/-- A listed opcode hands the rest of the frame to its layout's decoder. -/
theorem decode_listed (h : op ∈ listedOpcodes) : AnswersListed (Layout ⟨op :: rest, n⟩) (decode ⟨op :: rest, n⟩) := by
  simp only [listedOpcodes, List.mem_cons, List.not_mem_nil, or_false] at h
  obtain rfl | rfl | rfl | rfl | rfl | rfl | rfl | rfl | rfl | rfl | rfl | rfl := h
  · exact decodeReg6_answers .writeRegister
  · exact decodeReg6_answers .writeRegisterOrMask
  · exact decodeReg6_answers .writeRegisterAndMask
  · exact decodeReadRegister_answers
  · exact decodeWriteEEPROM_answers
  · exact decodeReadEEPROM_answers
  · exact decodeSendData_answers
  · exact decodeReadData_answers
  · exact .switchMode rest n
  · exact decodeLoadRFConfig_answers
  · exact decodeRf2_answers .rfOn
  · exact decodeRf2_answers .rfOff

theorem decode_unlisted (h : op ∉ listedOpcodes) : decode ⟨op :: rest, n⟩ = .error (.unlistedOpcode op) := by
  have hn : op.toNat ∉ listedOpcodes.map BitVec.toNat := mt (List.mem_map_of_injective BitVec.toNat_injective).1 h
  simp only [decode]
  split
  case h_13 => rfl
  all_goals next ho => exact absurd (by rw [ho]; decide) hn

end

/-- What decodes has its command's layout. -/
theorem layout_of_decode {e : Encoding} {i : Instr} (h : decode e = .ok i) : Layout e i := by
  obtain ⟨_ | ⟨op, rest⟩, n⟩ := e
  · cases h
  · by_cases ho : op ∈ listedOpcodes
    · have ha := decode_listed (rest := rest) (n := n) ho
      rwa [h] at ha
    · rw [decode_unlisted ho] at h
      cases h

/-- The encoder writes the layout's own bytes: SwitchMode apart, nothing of the encoding is lost in the command. -/
theorem Layout.encode_eq {e : Encoding} {i : Instr} (h : Layout e i) (hi : i ≠ .switchMode) : encode i = e := by
  cases h with
  | switchMode => exact absurd rfl hi
  | writeRegister | writeRegisterOrMask | writeRegisterAndMask => simp only [encode, le32_unle32]
  | writeEEPROM | readEEPROM | sendData => simp only [encode, BitVec.ofNat_toNat, BitVec.setWidth_eq]
  | readRegister | readData | loadRFConfig | rfOn | rfOff => rfl

/-! ## The statements -/

/-- Settles O1: each layout gives back the operands written into it. -/
theorem decodeEncodeRoundTrip : Obligations.DecodeEncodeRoundTrip := fun _ => decode_encode

/-- Settles O2: what decodes has its command's layout, and the encoder writes that layout. -/
theorem decodedIsEncoded : Obligations.DecodedIsEncoded := by
  refine ⟨fun e i h => (layout_of_decode h).encode_eq, fun e => ⟨fun h => ?_, fun h => ?_⟩⟩
  · cases layout_of_decode h
    rfl
  · obtain ⟨_ | ⟨op, rest⟩, n⟩ := e
    · cases h
    · cases h
      rfl

/-- Settles O3: a listed opcode is never refused as unlisted, and every other one is. -/
theorem opcodeMapClosed : Obligations.OpcodeMapClosed := by
  refine fun op rest n => ⟨fun h ho => ?_, decode_unlisted⟩
  have ha := decode_listed (rest := rest) (n := n) ho
  rwa [h] at ha

/-- Settles O4: a frame that decodes has its command's layout, and each layout has its lengths. -/
theorem frameLengthsChecked : Obligations.FrameLengthsChecked := by
  intro op rest n i h
  cases layout_of_decode h with
  | @writeEEPROM addr data hl =>
      have hb : 3 ≤ data.length + 1 + 1 ∧ data.length + 1 + 1 ≤ 256 := by omega
      simpa using hb
  | @sendData validBits payload hl =>
      have hb : 3 ≤ payload.length + 1 + 1 ∧ payload.length + 1 + 1 ≤ 262 := by omega
      simpa using hb
  | _ => simp

/-- Settles O5: the decoder evaluated on the eleven frames. -/
theorem specFramesDecode : Obligations.SpecFramesDecode := by
  unfold Obligations.SpecFramesDecode
  decide

end Sys2Proof
end

section
/-! SUPPORT. The record of events stays one the phases allow (R130, R133, R134, R136, R202). -/

namespace Sys2Proof.Machine

/-- Settles O53: a step takes the block from rest to rest, where the record is legal and agrees with the block. -/
theorem stepKeepsBusDiscipline : Obligations.StepKeepsBusDiscipline := by
  intro s t hi hb hst
  exact (step_atRest (.of_busOk hi hb) hst).busOk

end Sys2Proof.Machine
end

section
/-! SUPPORT. What a wait for BUSY comes to, sample by sample, with a front-end that is not FE_REF (R130, R137, R278), and which events
are no traffic. -/

namespace Sys2Proof.Machine

/-! ## The samples of BUSY -/

/-- The level an unconstrained front-end shows in a later sample of BUSY, number 0 the next one (R46). -/
def FrontEnd.levelAt (fe : FrontEnd) (k : Nat) : Bool := fe.inputs.busy.getD k fe.busy

/-- The front-end after so many samples of BUSY. -/
def FrontEnd.dropLevels (k : Nat) (fe : FrontEnd) : FrontEnd :=
  { fe with inputs := { fe.inputs with busy := fe.inputs.busy.drop k } }

/-- A sample of BUSY was taken and showed this level. -/
def State.sampled (level : Bool) (s : State) : State := (s.onFe (FrontEnd.dropLevels 1)).log (.busy level)

/-- So many samples of BUSY did not show the level awaited, and `bt_timer` has counted them. -/
def State.missed (level : Bool) (k : Nat) (s : State) : State :=
  { (s.onBus fun r => { r with timer := r.timer + k }).onFe (FrontEnd.dropLevels k) with
    trace := List.replicate k (.busy !level) ++ s.trace }

section

variable {s : State} {level : Bool} {cause : BusCause}

/-- A front-end with no levels in its input keeps having none. -/
theorem FrontEnd.dropLevels_nil {fe : FrontEnd} (h : fe.inputs.busy = []) (k : Nat) : fe.dropLevels k = fe := by
  rw [FrontEnd.dropLevels, h, List.drop_nil, ← h]

theorem FrontEnd.levelAt_dropLevels (fe : FrontEnd) (k j : Nat) : (fe.dropLevels k).levelAt j = fe.levelAt (k + j) := by
  simp [FrontEnd.levelAt, FrontEnd.dropLevels, List.getD_eq_getElem?_getD]

theorem State.missed_missed (level : Bool) (j k : Nat) (s : State) :
    (s.missed level j).missed level k = s.missed level (j + k) := by
  simp [State.missed, State.onBus, State.onFe, FrontEnd.dropLevels, Nat.add_assoc, List.replicate_append_replicate,
    ← List.append_assoc, Nat.add_comm k]

theorem sampleBusy_levelAt (hk : s.fe.kind = .unconstrained) (hr : s.resetIn = none) :
    sampleBusy s = .ok (s.fe.levelAt 0) (s.sampled (s.fe.levelAt 0)) := by
  have hl : s.fe.busyLevel = s.fe.levelAt 0 := by
    cases hb : s.fe.inputs.busy <;> simp [FrontEnd.busyLevel, hk, FrontEnd.levelAt, hb]
  have hn : s.fe.nextBusy = s.fe.dropLevels 1 := by simp [FrontEnd.nextBusy, hk, FrontEnd.dropLevels]
  simp [sampleBusy, hr, hl, State.onFe, State.log, hn, State.sampled]

/-- Samples that do not show the level awaited, while the bound allows more, are counted and no more (R137). -/
theorem waitSamples_missed (k n : Nat) : ∀ {s : State}, s.fe.kind = .unconstrained → s.resetIn = none →
    (∀ j < k, s.fe.levelAt j = !level) →
    waitSamples level cause (n + k) s = waitSamples level cause n (s.missed level k) := by
  induction k with
  | zero => exact fun _ _ _ => rfl
  | succ k ih =>
    intro s hk hr hl
    have hstep : waitSamples level cause (n + k + 1) s = waitSamples level cause (n + k) (s.missed level 1) := by
      rw [waitSamples, sampleBusy_levelAt hk hr, hl 0 (Nat.succ_pos k)]
      simp [State.sampled, State.missed, State.onBus, State.onFe, State.log]
    rw [← Nat.add_assoc, hstep, ih (s := s.missed level 1) hk hr, State.missed_missed, Nat.add_comm 1]
    intro j hj
    exact (s.fe.levelAt_dropLevels 1 j).trans (hl (1 + j) (by omega))

/-- The first sample that shows the level ends the wait, even the last one the bound allows (R278). -/
theorem waitSamples_shown (n : Nat) (hk : s.fe.kind = .unconstrained) (hr : s.resetIn = none)
    (hl : s.fe.levelAt 0 = level) : waitSamples level cause n s = .ok () (s.sampled level) := by
  cases n <;> simp [waitSamples, sampleBusy_levelAt hk hr, hl]

/-- A wait whose level is first shown after `k` samples that the bound allows. -/
theorem waitBusy_shown {k : Nat} (p : BtPhase) (hk : s.fe.kind = .unconstrained) (hr : s.resetIn = none)
    (hn : k ≤ s.params.tBusy) (hm : ∀ j < k, s.fe.levelAt j = !level) (hl : s.fe.levelAt k = level) :
    waitBusy p level cause s = .ok () (((s.enter p).missed level k).sampled level) := by
  rw [waitBusy, ← Nat.sub_add_cancel hn, waitSamples_missed k _ (s := s.enter p) hk hr hm]
  exact waitSamples_shown (s := (s.enter p).missed level k) _ hk hr ((s.fe.levelAt_dropLevels k 0).trans hl)

/-- A wait whose level none of the `T_BUSY` + 1 samples shows. -/
theorem waitBusy_missed (p : BtPhase) (hk : s.fe.kind = .unconstrained) (hr : s.resetIn = none)
    (hm : ∀ j ≤ s.params.tBusy, s.fe.levelAt j = !level) :
    waitBusy p level cause s =
      raiseBusTimeout cause (((s.enter p).missed level s.params.tBusy).sampled (!level)) := by
  have hlast : ((s.enter p).missed level s.params.tBusy).fe.levelAt 0 = !level :=
    (s.fe.levelAt_dropLevels _ 0).trans (hm _ le_rfl)
  have hmiss := waitSamples_missed (cause := cause) s.params.tBusy 0 (s := s.enter p) hk hr fun j hj => hm j hj.le
  rw [Nat.zero_add] at hmiss
  rw [waitBusy, hmiss, waitSamples, sampleBusy_levelAt (s := (s.enter p).missed level s.params.tBusy) hk hr, hlast]
  simp

/-- The levels of an input that shows another level so many times first. -/
theorem FrontEnd.levelAt_replicate {fe : FrontEnd} {k : Nat} {more : List Bool}
    (h : fe.inputs.busy = List.replicate k level ++ more) {j : Nat} (hj : j < k) : fe.levelAt j = level := by
  rw [FrontEnd.levelAt, h, List.getD_append _ _ _ _ (by simpa using hj), List.getD_replicate _ hj]

theorem FrontEnd.levelAt_after_replicate {fe : FrontEnd} {k : Nat} {other : Bool} {more : List Bool}
    (h : fe.inputs.busy = List.replicate k other ++ level :: more) : fe.levelAt k = level := by
  rw [FrontEnd.levelAt, h, List.getD_append_right _ _ _ _ (by simp)]
  simp

end

/-! ## Events that are no traffic -/

/-- The event opens no frame and moves no byte. -/
def Event.isMute : Event → Bool
  | .select true | .sent _ | .captured _ _ => false
  | .phase _ | .stage _ | .busy _ | .select false | .settle | .irq _ | .reset => true

/-- The event can come between the last sample of a wait that runs out and the end of the operation (R138, R219). -/
def Event.isEnding : Event → Bool
  | .phase _ | .stage _ | .select false => true
  | .select true | .busy _ | .settle | .sent _ | .captured _ _ | .irq _ | .reset => false

theorem Event.isMute_of_isEnding {e : Event} (h : e.isEnding = true) : e.isMute = true := by
  cases e with
  | phase | stage => rfl
  | select on =>
    cases on with
    | false => rfl
    | true => cases h
  | busy | settle | sent | captured | irq | reset => cases h

theorem traffic_of_mute {ev : List Event} (h : ∀ e ∈ ev, e.isMute = true) :
    framesOpened ev = 0 ∧ bytesSent ev = [] ∧ bytesCaptured ev = [] := by
  refine ⟨List.countP_eq_zero.2 fun e he => ?_, List.filterMap_eq_nil_iff.2 fun e he => ?_,
    List.filterMap_eq_nil_iff.2 fun e he => ?_⟩
  · have hm := h e he
    rw [decide_eq_true_eq]
    rintro rfl
    cases hm
  all_goals
    have hm := h e (List.mem_reverse.1 he)
    cases e with
    | sent | captured => cases hm
    | phase | stage | busy | select | settle | irq | reset => rfl

/-- Mute events add nothing to the traffic. -/
theorem Traffic.mute {s t u : State} {n : Nat} {o i : List Byte} {ev : List Event} (h : Traffic s t n o i)
    (hu : u.trace = ev ++ t.trace) (he : ∀ e ∈ ev, e.isMute = true) : Traffic s u n o i := by
  obtain ⟨hf, hs, hc⟩ := traffic_of_mute he
  simpa using h.append hu hf hs hc

theorem Traffic.refl (s : State) : Traffic s s 0 [] [] := ⟨[], rfl, rfl, rfl, rfl⟩

theorem Traffic.missed {s t : State} {n : Nat} {o i : List Byte} (h : Traffic s t n o i) (level : Bool) (k : Nat) :
    Traffic s (t.missed level k) n o i :=
  h.mute rfl fun e he => by rw [List.eq_of_mem_replicate he]; rfl

theorem Traffic.log {s t : State} {n : Nat} {o i : List Byte} (h : Traffic s t n o i) {e : Event} (he : e.isMute = true) :
    Traffic s (t.log e) n o i :=
  h.mute (ev := [e]) rfl (by simpa using he)

/-! ## The end of a wait that runs out -/

/-- What `raise BusTimeout` leaves (R138): everything around as it was, and in step 1 the front-end too (R141). -/
structure TimedOut (cause : BusCause) (s t : State) : Prop where
  trace : ∃ ev, t.trace = ev ++ s.trace ∧ ∀ e ∈ ev, e.isEnding = true
  params : t.params = s.params
  resetIn : t.resetIn = s.resetIn
  rst : t.xcvr.rst = s.xcvr.rst
  fe : cause = .waitReady → t.fe = s.fe

/-- `sel` goes to 0, in an event of its own where it was asserted (R138). -/
def State.deselected (s : State) : State :=
  if s.xcvr.bus.sel then (s.onBus fun b => { b with sel := false }).log (.select false) else s

theorem State.deselected_timedOut (cause : BusCause) (s : State) : TimedOut cause s (s.deselected.enter .idle) := by
  unfold State.deselected
  split
  · exact ⟨⟨[.phase .idle, .select false], rfl, by decide⟩, rfl, rfl, rfl, fun _ => rfl⟩
  · exact ⟨⟨[.phase .idle], rfl, by decide⟩, rfl, rfl, rfl, fun _ => rfl⟩

theorem raiseBusTimeout_stops {α : Type} (cause : BusCause) (s : State) :
    ∃ t, (raiseBusTimeout cause s : Run α) = .stop (.outcome (.busTimeout cause)) t ∧ TimedOut cause s t := by
  cases cause with
  | irqPoll => exact ⟨_, rfl, ⟨[], rfl, by decide⟩, rfl, rfl, rfl, nofun⟩
  | waitReady => exact ⟨_, rfl, s.deselected_timedOut _⟩
  | waitBusyAssert | waitBusyRelease => exact ⟨_, rfl, { s.deselected_timedOut .irqPoll with fe := nofun }⟩

theorem TimedOut.traffic {cause : BusCause} {s t u : State} {n : Nat} {o i : List Byte} (h : TimedOut cause t u)
    (ht : Traffic s t n o i) : Traffic s u n o i := by
  obtain ⟨ev, hu, he⟩ := h.trace
  exact ht.mute hu fun e hm => Event.isMute_of_isEnding (he e hm)

/-- Settles O47: the samples before the level is shown are counted, and those the bound allows are all there are. -/
theorem busyWaitBounded : Obligations.BusyWaitBounded := by
  intro s ph level cause k more hk hr hb
  have hm : ∀ j < k, s.fe.levelAt j = !level := fun j hj => FrontEnd.levelAt_replicate hb hj
  refine ⟨fun hn => ?_, fun hn => ?_⟩
  · refine ⟨_, waitBusy_shown ph hk hr hn hm (FrontEnd.levelAt_after_replicate hb), ?_, ?_, rfl⟩
    · simp [State.sampled, State.missed, FrontEnd.dropLevels, hb]
    · simp [State.sampled, State.missed]
  · rw [waitBusy_missed ph hk hr fun j hj => hm j (by omega)]
    obtain ⟨t, ht, -⟩ := raiseBusTimeout_stops cause _
    exact ⟨t, ht⟩

end Sys2Proof.Machine
end

section
/-! SUPPORT. A direct command whose wait for BUSY runs out: in step 1, before select is asserted, and in the steps 4 and 6 of its write
frame and of its read frame (R138, R141). -/

namespace Sys2Proof.Machine

/-! ## A command that ends in its exchange -/

/-- The piece of an operation ends it with this outcome, in a state that meets `P`. -/
abbrev Run.EndsWith {α : Type} (m : Run α) (o : OpOutcome) (P : State → Prop) : Prop :=
  m.Sat (fun _ _ => False) fun why t => why = .outcome o ∧ P t

section

variable {s : State} {o : OpOutcome} {P : State → Prop}

theorem performOperation_endsWith {body : State → Run Completion} (hk : s.fe.kind = .unconstrained)
    (h : (body s.accept).EndsWith o P) : ∃ t, performOperation body s = .next (t.complete ⟨o, .none⟩) ∧ P t := by
  rw [performOperation, hk]
  generalize body s.accept = m at h ⊢
  cases m with
  | ok c t => exact h.elim
  | stop why t =>
    obtain ⟨rfl, hp⟩ := h
    exact ⟨t, rfl, hp⟩

/-- A direct command that passes its check ends as the exchange of its frames ends: an `exchange` where it has no read frame,
else an `exchangeRead`. -/
theorem exec_endsWith {i : Instr} (hk : s.fe.kind = .unconstrained) (hp : paramError s.params i = none)
    (hi : i ≠ .switchMode)
    (hs : (encode i).readLen = 0 → (exchange (encode i).frame (dcBegin i s.accept)).EndsWith o P)
    (hq : (exchangeRead (encode i).frame (encode i).readLen (dcBegin i s.accept)).EndsWith o P) :
    ∃ t, exec i s = .next (t.complete ⟨o, .none⟩) ∧ P t := by
  have hc : checkOperands i s.accept = .ok () s.accept := checkOperands_of_accepted hp
  have hsend : (encode i).readLen = 0 → (sendCommand i s.accept).EndsWith o P := by simpa [sendCommand, hc] using hs
  have hquery : (queryCommand i s.accept).EndsWith o P := by simpa [queryCommand, hc] using hq
  cases i with
  | switchMode => exact absurd rfl hi
  | writeRegister | writeRegisterOrMask | writeRegisterAndMask | writeEEPROM | sendData | loadRFConfig =>
    exact performOperation_endsWith (body := fun s => (sendCommand _ s).map fun _ => Completion.done) hk
      (Run.Sat.map (hsend rfl))
  | rfOn | rfOff =>
    exact performOperation_endsWith (body := switchField _ _) hk (Run.Sat.andThen (hsend rfl) fun _ _ => False.elim)
  | readEEPROM | readData =>
    exact performOperation_endsWith (body := fun s => (queryCommand _ s).map fun b => ⟨.ok, .bytes b⟩) hk (Run.Sat.map hquery)
  | readRegister =>
    exact performOperation_endsWith (body := fun s => (readRegister _ s).map fun v => ⟨.ok, .value v⟩) hk
      (Run.Sat.map (Run.Sat.map hquery))

end

/-! ## BUSY at 1 for ever -/

/-- From `s` to `t` nothing has changed but the registers of the block and the record of events, and that by no traffic. -/
structure Undisturbed (s t : State) : Prop where
  fe : t.fe = s.fe
  params : t.params = s.params
  resetIn : t.resetIn = s.resetIn
  rst : t.xcvr.rst = s.xcvr.rst
  traffic : Traffic s t 0 [] []

theorem Undisturbed.around {s t : State} (h : Undisturbed s t) (c : Completion) : BlockAround s (t.complete c) :=
  { idle := rfl, rst := h.rst, params := h.params, resetIn := h.resetIn
    feKind := congrArg FrontEnd.kind h.fe, feIrq := congrArg FrontEnd.irq h.fe, feInputs := congrArg FrontEnd.inputs h.fe }

/-- Step 1 with BUSY at 1 for ever (R141). -/
theorem startExchange_busy {s t : State} (send : List Byte) (h : Undisturbed s t) (hk : s.fe.kind = .unconstrained)
    (hr : s.resetIn = none) (hb : s.fe.inputs.busy = []) (hl : s.fe.busy = true) :
    (startExchange send t).EndsWith (.busTimeout .waitReady) (Undisturbed s) := by
  have hm : ∀ j ≤ t.params.tBusy, t.fe.levelAt j = !false := fun j _ => by simp [FrontEnd.levelAt, h.fe, hb, hl]
  have hd : ∀ k, t.fe.dropLevels k = s.fe := fun k => by rw [h.fe, FrontEnd.dropLevels_nil hb]
  rw [startExchange, waitBusy_missed (s := t.onBus _) _ (h.fe ▸ hk) (h.resetIn.trans hr) hm]
  obtain ⟨u, hu, ht⟩ := raiseBusTimeout_stops (α := Unit) .waitReady _
  rw [hu]
  refine ⟨rfl, ?_⟩
  exact
    { fe := (ht.fe rfl).trans (by simp [State.sampled, State.missed, hd, FrontEnd.dropLevels_nil hb])
      params := ht.params.trans h.params
      resetIn := ht.resetIn.trans h.resetIn
      rst := ht.rst.trans h.rst
      traffic := ht.traffic (((h.traffic.log rfl).missed false _).log rfl) }

/-- Settles O48: with BUSY at 1 step 1 runs out, before select is asserted. -/
theorem busyForEverEndsWaitReady : Obligations.BusyForEverEndsWaitReady := by
  intro s i hk hr hb hl hp hi
  have hu : Undisturbed s (dcBegin i s.accept) := ⟨rfl, rfl, rfl, rfl, .refl s⟩
  have hstart : (startExchange (encode i).frame (dcBegin i s.accept)).EndsWith (.busTimeout .waitReady) (Undisturbed s) :=
    startExchange_busy _ hu hk hr hb hl
  obtain ⟨t, ht, h⟩ := exec_endsWith hk hp hi (fun _ => hstart.andThen fun _ _ => False.elim)
    (hstart.andThen fun _ _ => False.elim)
  exact ⟨_, ht, rfl, h.fe, h.traffic, h.around _⟩

end Sys2Proof.Machine
end

section
/-! SUPPORT. A direct command in whose write frame or read frame BUSY is never raised, or never lowered (R138, R141): the levels its
waits sample, and the bytes that have moved by then. -/

namespace Sys2Proof.Machine

/-- From `s` to `t` inside one operation, with a front-end that is not FE_REF and no reset event on its way: these levels of BUSY are
still to be sampled, and so many frames were opened, with these bytes. -/
structure Heard (s t : State) (levels : List Bool) (frames : Nat) (out inp : List Byte) : Prop where
  kind : t.fe.kind = .unconstrained
  noReset : t.resetIn = none
  params : t.params = s.params
  levels : t.fe.inputs.busy = levels
  traffic : Traffic s t frames out inp

theorem FrontEnd.nextReply_busy (fe : FrontEnd) : fe.nextReply.inputs.busy = fe.inputs.busy := by
  cases hr : fe.reply <;> cases hk : fe.kind <;> simp [FrontEnd.nextReply, hr, hk]

theorem FrontEnd.processFrame_busy (p : Params) (readLen : Nat) (fe : FrontEnd) :
    (fe.processFrame p readLen).inputs.busy = fe.inputs.busy := by
  unfold FrontEnd.processFrame
  split
  · rfl
  · split
    · obtain ⟨-, -, -, -, hi⟩ := fe.ownAction_rest
      show fe.ownAction.inputs.busy = fe.inputs.busy
      rw [hi]
    · rfl

section

variable {s t : State} {levels more : List Bool} {level : Bool} {cause : BusCause} {frames : Nat} {out inp send : List Byte}
  {α : Type} {Q : Unit → State → Prop} {E : Stop → State → Prop} {o : OpOutcome} {P : State → Prop}

theorem Heard.log (h : Heard s t levels frames out inp) {e : Event} (he : e.isMute = true) :
    Heard s (t.log e) levels frames out inp :=
  { h with traffic := h.traffic.log he }

theorem Heard.onBus (h : Heard s t levels frames out inp) (f : BusRegs → BusRegs) :
    Heard s (t.onBus f) levels frames out inp :=
  { h with }

theorem Heard.enter (h : Heard s t levels frames out inp) (p : BtPhase) : Heard s (t.enter p) levels frames out inp :=
  (h.onBus _).log rfl

/-! ## The waits -/

/-- A wait whose level the next sample shows; the frame to send stays. -/
theorem waitBusy_heard (p : BtPhase) (h : Heard s t (level :: levels) frames out inp) :
    (waitBusy p level cause t).Sat
      (fun _ u => Heard s u levels frames out inp ∧ u.xcvr.bus.txf = t.xcvr.bus.txf) E := by
  have hl : t.fe.levelAt 0 = level := by rw [FrontEnd.levelAt, h.levels]; rfl
  rw [waitBusy_shown (k := 0) p h.kind h.noReset (Nat.zero_le _) nofun hl]
  have hlevels : ((t.fe.dropLevels 0).dropLevels 1).inputs.busy = levels := by simp [FrontEnd.dropLevels, h.levels]
  exact ⟨{ h with levels := hlevels, traffic := ((h.enter p).traffic.missed level 0).log rfl }, rfl⟩

/-- A wait whose level none of the samples the bound allows shows: it ends the operation, and no byte moves. -/
theorem waitBusy_unheard (p : BtPhase)
    (h : Heard s t (List.replicate (s.params.tBusy + 1) (!level) ++ more) frames out inp) :
    (waitBusy p level cause t).EndsWith (.busTimeout cause) fun u => Traffic s u frames out inp := by
  have hm : ∀ j ≤ t.params.tBusy, t.fe.levelAt j = !level := fun j hj =>
    FrontEnd.levelAt_replicate h.levels (by rw [h.params] at hj; omega)
  rw [waitBusy_missed p h.kind h.noReset hm]
  obtain ⟨u, hu, ht⟩ := raiseBusTimeout_stops (α := Unit) cause _
  rw [hu]
  exact ⟨rfl, ht.traffic (((h.enter p).traffic.missed level _).log rfl)⟩

/-! ## The steps of a frame -/

theorem settle_heard (h : Heard s t levels frames out inp) :
    (settle t).Sat (fun _ u => Heard s u levels frames out inp) E := by
  rw [settle, pulse_none h.noReset]
  exact (h.onBus _).log rfl

theorem assertSelect_heard (dir : BtDir) (h : Heard s t levels frames out inp) :
    (assertSelect dir t).Sat (fun _ u => Heard s u levels (frames + 1) out inp) E := by
  rw [assertSelect, pulse_none (s := t.enter .settleA) h.noReset]
  have hs : Traffic s ((t.enter .settleA).log (.select true)) (frames + 1) out inp := by
    simpa using (h.enter .settleA).traffic.append (ev := [.select true]) rfl (m := 1) rfl (o' := []) rfl (i' := []) rfl
  cases dir with
  | wr => exact settle_heard { h with traffic := hs }
  | rd => exact settle_heard { h with traffic := hs }

theorem captureByte_heard (h : Heard s t levels frames out inp) :
    (captureByte t).Sat (fun _ u => ∃ b, Heard s u levels frames out (inp ++ [b])) E := by
  rw [captureByte, pulse_none h.noReset]
  have hc : Traffic s (t.log (.captured 0xFF t.fe.replyByte)) frames out (inp ++ [t.fe.replyByte]) := by
    simpa using h.traffic.append (u := t.log (.captured 0xFF t.fe.replyByte)) (ev := [.captured 0xFF t.fe.replyByte]) rfl
      (m := 0) rfl (o' := []) rfl (i' := [t.fe.replyByte]) rfl
  exact ⟨t.fe.replyByte, { h with
    kind := t.fe.nextReply_kind.trans h.kind, levels := t.fe.nextReply_busy.trans h.levels, traffic := hc }⟩

theorem captureBytes_heard (k : Nat) : ∀ {t : State} {inp : List Byte}, Heard s t levels frames out inp →
    (captureBytes k t).Sat (fun _ u => ∃ b, b.length = k ∧ Heard s u levels frames out (inp ++ b)) E := by
  induction k with
  | zero => exact fun h => ⟨[], rfl, by simpa using h⟩
  | succ k ih =>
    refine fun h => (captureByte_heard h).andThen fun _ t ⟨x, ht⟩ => (ih ht).mono (fun _ u ⟨b, hb, hu⟩ => ?_) fun _ _ => id
    exact ⟨x :: b, by simp [hb], by simpa using hu⟩

theorem releaseSelect_heard (dir : BtDir) (readLen : Nat) (h : Heard s t levels frames out inp) :
    (releaseSelect dir readLen t).Sat (fun _ u => Heard s u levels frames out inp) E := by
  rw [releaseSelect, pulse_none (s := t.enter .settleD) h.noReset]
  have hs := ((h.enter .settleD).log (e := .select false) rfl).traffic
  cases dir with
  | wr =>
    exact settle_heard { h with
      kind := (t.fe.processFrame_kind _ _).trans h.kind
      levels := (t.fe.processFrame_busy _ _).trans h.levels, traffic := hs }
  | rd => exact settle_heard { h with traffic := hs }

/-- Steps 5 and 6 follow where BUSY is 1 in step 4. -/
theorem finishFrame_raised (dir : BtDir) (readLen : Nat) (h : Heard s t (true :: levels) frames out inp)
    (hdone : ∀ u, Heard s u levels frames out inp → (waitBusy .waitDone false .waitBusyRelease u).Sat Q E) :
    (finishFrame dir readLen t).Sat Q E :=
  (waitBusy_heard (t := t.onFe FrontEnd.raiseBusy) .waitBusy { h with }).andThen fun _ _ hu =>
    (releaseSelect_heard dir readLen hu.1).andThen fun _ => hdone

theorem finishFrame_done (dir : BtDir) (readLen : Nat) (h : Heard s t (true :: false :: levels) frames out inp) :
    (finishFrame dir readLen t).Sat (fun _ u => Heard s u levels frames out inp) E :=
  finishFrame_raised dir readLen h fun _ hu => (waitBusy_heard .waitDone hu).mono (fun _ _ => And.left) fun _ _ => id

/-- BUSY is never 1 in step 4. -/
theorem finishFrame_unraised (dir : BtDir) (readLen : Nat)
    (h : Heard s t (List.replicate (s.params.tBusy + 1) false ++ more) frames out inp) :
    (finishFrame dir readLen t).EndsWith (.busTimeout .waitBusyAssert) fun u => Traffic s u frames out inp :=
  (waitBusy_unheard (t := t.onFe FrontEnd.raiseBusy) (level := true) .waitBusy { h with }).andThen fun _ _ => False.elim

/-- BUSY is never back at 0 in step 6. -/
theorem finishFrame_unlowered (dir : BtDir) (readLen : Nat)
    (h : Heard s t (true :: (List.replicate (s.params.tBusy + 1) true ++ more)) frames out inp) :
    (finishFrame dir readLen t).EndsWith (.busTimeout .waitBusyRelease) fun u => Traffic s u frames out inp :=
  finishFrame_raised dir readLen h fun _ hu => waitBusy_unheard (level := false) .waitDone hu

theorem startExchange_heard (h : Heard s t (false :: levels) frames out inp) :
    (startExchange send t).Sat (fun _ u => Heard s u levels frames out inp ∧ u.xcvr.bus.txf = send) E :=
  waitBusy_heard (t := t.onBus _) .waitReady (h.onBus _)

/-- A write frame comes to what its steps 4 to 6 come to, with all its bytes sent. -/
theorem writeFrame_heard {readLen : Nat} (h : Heard s t levels frames out inp)
    (hf : ∀ u, Heard s u levels (frames + 1) (out ++ send) inp → (finishFrame .wr readLen u).Sat Q E) :
    (writeFrame send readLen t).Sat Q E := by
  refine (assertSelect_heard .wr h).andThen fun _ u hu => ?_
  rw [sendBytes_quiet send (s := u.enter .xfer) hu.noReset]
  refine hf _ { hu with traffic := ?_ }
  simpa using (hu.enter .xfer).traffic.append (ev := (send.map Event.sent).reverse) rfl (framesOpened_sent _)
    (bytesSent_sent _) (bytesCaptured_sent _)

/-- A read frame comes to what its steps 4 to 6 come to, with so many bytes captured. -/
theorem readFrame_heard {n : Nat} (h : Heard s t levels frames out inp)
    (hf : ∀ u b, b.length = n → Heard s u levels (frames + 1) out (inp ++ b) → (finishFrame .rd n u).Sat Q E) :
    (readFrame n t).Sat Q E :=
  (assertSelect_heard (t := (dcReadPhase t).onBus _) .rd { h with }).andThen fun _ _ hu =>
    (captureBytes_heard n (hu.enter .xfer)).andThen fun _ v ⟨b, hb, hv⟩ => hf v b hb hv

/-! ## The commands -/

/-- The operation has been accepted, and its exchange begins. -/
theorem Heard.start (i : Instr) (hk : s.fe.kind = .unconstrained) (hr : s.resetIn = none)
    (hb : s.fe.inputs.busy = levels) : Heard s (dcBegin i s.accept) levels 0 [] [] :=
  ⟨hk, hr, rfl, hb, .refl s⟩

/-- A command that ends in the steps 4 to 6 of its write frame. -/
theorem exec_ends_in_write {i : Instr} (hk : s.fe.kind = .unconstrained) (hr : s.resetIn = none)
    (hp : paramError s.params i = none) (hi : i ≠ .switchMode) (hb : s.fe.inputs.busy = false :: levels)
    (hf : ∀ u readLen, Heard s u levels 1 (encode i).frame [] →
      (finishFrame .wr readLen u).EndsWith o fun v => Traffic s v 1 (encode i).frame []) :
    ∃ t, exec i s = .next t ∧ t.completion = some ⟨o, .none⟩ ∧ Traffic s t 1 (encode i).frame [] ∧
      t.xcvr.isIdle = true := by
  have hw : ∀ readLen, ((startExchange (encode i).frame (dcBegin i s.accept)).andThen fun _ s =>
      writeFrame s.xcvr.bus.txf readLen s).EndsWith o fun v => Traffic s v 1 (encode i).frame [] := fun readLen =>
    (startExchange_heard (.start i hk hr hb)).andThen fun _ u hu =>
      writeFrame_heard hu.1 fun v hv => hf v readLen (by simpa [hu.2] using hv)
  have hends := exec_endsWith (P := fun v => Traffic s v 1 (encode i).frame []) hk hp hi
    (fun _ => by
      rw [exchange, ← Run.andThen_assoc]
      exact (hw 0).andThen fun _ _ => False.elim)
    (by
      rw [exchangeRead, ← Run.andThen_assoc]
      exact (hw _).andThen fun _ _ => False.elim)
  obtain ⟨t, ht, htr⟩ := hends
  exact ⟨_, ht, rfl, htr, rfl⟩

/-- A command that ends in the steps 4 to 6 of its read frame. -/
theorem exec_ends_in_read {i : Instr} (hk : s.fe.kind = .unconstrained) (hr : s.resetIn = none)
    (hp : paramError s.params i = none) (hi : i ≠ .switchMode) (hn : 1 ≤ (encode i).readLen)
    (hb : s.fe.inputs.busy = false :: true :: false :: levels)
    (hf : ∀ u b, Heard s u levels 2 (encode i).frame b →
      (finishFrame .rd (encode i).readLen u).EndsWith o fun v => Traffic s v 2 (encode i).frame b) :
    ∃ t b, exec i s = .next t ∧ t.completion = some ⟨o, .none⟩ ∧ b.length = (encode i).readLen ∧
      Traffic s t 2 (encode i).frame b ∧ t.xcvr.isIdle = true := by
  have hends := exec_endsWith (o := o)
    (P := fun v => ∃ b, b.length = (encode i).readLen ∧ Traffic s v 2 (encode i).frame b) hk hp hi (fun h0 => by omega)
    ((startExchange_heard (.start i hk hr hb)).andThen fun _ u hu => by
      refine Run.Sat.andThen (writeFrame_heard hu.1 fun v hv => finishFrame_done .wr _ hv) fun _ v hv => ?_
      refine Run.Sat.andThen (readFrame_heard hv fun w b hlen hw => ?_) fun _ _ => False.elim
      exact (hf w b (by simpa [hu.2] using hw)).mono (fun _ _ => id) fun _ _ h => ⟨h.1, b, hlen, h.2⟩)
  obtain ⟨t, ht, b, hlen, htr⟩ := hends
  exact ⟨_, b, ht, rfl, hlen, htr, rfl⟩

end

/-- Settles O49: step 4 of the frame runs out, and no frame is opened after it. -/
theorem busyNeverRaisedEndsWaitBusyAssert : Obligations.BusyNeverRaisedEndsWaitBusyAssert := by
  intro s i more hk hr hp hi
  refine ⟨fun hb => ?_, fun hn hb => ?_⟩
  · exact exec_ends_in_write hk hr hp hi hb fun _ readLen => finishFrame_unraised .wr readLen
  · exact exec_ends_in_read hk hr hp hi hn hb fun _ _ => finishFrame_unraised .rd _

/-- Settles O50: step 6 of the frame runs out, and no frame is opened after it. -/
theorem busyNeverLoweredEndsWaitBusyRelease : Obligations.BusyNeverLoweredEndsWaitBusyRelease := by
  intro s i more hk hr hp hi
  refine ⟨fun hb => ?_, fun hn hb => ?_⟩
  · exact exec_ends_in_write hk hr hp hi hb fun _ readLen => finishFrame_unlowered .wr readLen
  · exact exec_ends_in_read hk hr hp hi hn hb fun _ _ => finishFrame_unlowered .rd _

end Sys2Proof.Machine
end

section
/-! SUPPORT. A BusTimeout of a wait for BUSY, followed from the sample that ended the wait to the end of the operation, whichever
operation it is (R138, R219). -/

namespace Sys2Proof.Machine

/-! ## Where a BusTimeout comes from -/

/-- The waits for BUSY: the cause of its BusTimeout, its phase and the level it awaits (R130 steps 1, 4, 6). -/
inductive BusCause.Awaits : BusCause → BtPhase → Bool → Prop where
  | ready : Awaits .waitReady .waitReady false
  | raised : Awaits .waitBusyAssert .waitBusy true
  | lowered : Awaits .waitBusyRelease .waitDone false

/-- Since `s` a wait for BUSY has run out and raised BusTimeout with this cause: its last sample did not show the level awaited, and
nothing but the end of the operation has come after it. -/
def CutInWait (cause : BusCause) (s t : State) : Prop :=
  ∃ later level before, t.trace = later ++ .busy (!level) :: (before ++ s.trace) ∧ (∀ e ∈ later, e.isEnding = true) ∧
    cause.Awaits (phaseNow (before ++ s.trace)) level

/-- If the operation ends by a BusTimeout that is not the flag poll's, a wait for BUSY has just run out. -/
def StoppedInWait (s : State) (why : Stop) (t : State) : Prop :=
  ∀ cause, why = .outcome (.busTimeout cause) → cause ≠ .irqPoll → CutInWait cause s t

/-- The piece of an operation goes on from the events of `s`, and a BusTimeout in it is that of a wait that has just run out. -/
abbrev Run.CutsOnlyInWaits {α : Type} (s : State) (m : Run α) : Prop :=
  m.Sat (fun _ t => s.trace <:+ t.trace) (StoppedInWait s)

section

variable {s t : State} {α β : Type}

theorem CutInWait.since {cause : BusCause} {u : State} (h : CutInWait cause t u) (hs : s.trace <:+ t.trace) :
    CutInWait cause s u := by
  obtain ⟨ev, hs⟩ := hs
  obtain ⟨later, level, before, hu, hl, ha⟩ := h
  rw [← hs, ← List.append_assoc] at hu ha
  exact ⟨later, level, before ++ ev, hu, hl, ha⟩

theorem StoppedInWait.since {why : Stop} {u : State} (h : StoppedInWait t why u) (hs : s.trace <:+ t.trace) :
    StoppedInWait s why u :=
  fun cause hw hc => (h cause hw hc).since hs

/-- A piece that starts in a later state. -/
theorem Run.CutsOnlyInWaits.since {m : Run α} (h : m.CutsOnlyInWaits t) (hs : s.trace <:+ t.trace) :
    m.CutsOnlyInWaits s :=
  h.mono (fun _ _ => hs.trans) fun _ _ hw => hw.since hs

/-- Two pieces one after the other. -/
theorem Run.CutsOnlyInWaits.andThen {m : Run α} {f : α → State → Run β} (h : m.CutsOnlyInWaits s)
    (hf : ∀ a t, (f a t).CutsOnlyInWaits t) : (m.andThen f).CutsOnlyInWaits s :=
  Run.Sat.andThen h fun a t ht => (hf a t).since ht

theorem Run.CutsOnlyInWaits.map {m : Run α} {f : α → β} (h : m.CutsOnlyInWaits s) : (m.map f).CutsOnlyInWaits s :=
  Run.Sat.map h

/-! ## The bus transport (R130 to R143) -/

/-- A bus action, which a reset event may come before. -/
theorem afterPulse_inWaits {f : Unit → State → Run β} {Q : β → State → Prop}
    (hf : ∀ n, (f () { s with resetIn := n }).Sat Q (StoppedInWait s)) :
    ((pulse s).andThen f).Sat Q (StoppedInWait s) := by
  refine Run.Sat.andThen ((pulse_sat s).mono (fun _ _ => id) fun why t e => ?_) fun _ t e => e ▸ hf t.resetIn
  rw [e.1]
  exact fun _ hw => nomatch hw

theorem settle_cutsOnlyInWaits (s : State) : (settle s).CutsOnlyInWaits s :=
  afterPulse_inWaits fun _ => List.suffix_cons _ _

/-- A sample of BUSY is the newest event, and all that is new. -/
theorem sampleBusy_sat (s : State) : (sampleBusy s).Sat (fun b t => t.trace = .busy b :: s.trace) (StoppedInWait s) :=
  afterPulse_inWaits fun _ => rfl

/-- A wait that runs out does so in a sample of its own phase that did not show the level. -/
theorem waitSamples_cutsOnlyInWaits {cause : BusCause} {level : Bool} (n : Nat) : ∀ {s : State},
    cause.Awaits (phaseNow s.trace) level → (waitSamples level cause n s).CutsOnlyInWaits s := by
  induction n with
  | zero =>
    refine fun {s} h => (sampleBusy_sat s).andThen fun b t ht => ?_
    have hs : s.trace <:+ t.trace := ht ▸ List.suffix_cons _ _
    split
    · exact hs
    · next hb =>
      obtain ⟨u, hu, hout⟩ := raiseBusTimeout_stops (α := Unit) cause t
      obtain ⟨later, htr, hl⟩ := hout.trace
      rw [hu]
      rintro c ⟨⟩ -
      refine ⟨later, level, [], ?_, hl, h⟩
      rw [htr, ht, Bool.eq_not.2 hb]
      rfl
  | succ n ih =>
    refine fun {s} h => (sampleBusy_sat s).andThen fun b t ht => ?_
    have hs : s.trace <:+ t.trace := ht ▸ List.suffix_cons _ _
    split
    · exact hs
    · have hphase : phaseNow t.trace = phaseNow s.trace := by rw [ht]; rfl
      exact (ih (s := t.onBus _) (hphase ▸ h)).since hs

theorem waitBusy_cutsOnlyInWaits {p : BtPhase} {level : Bool} {cause : BusCause} (h : cause.Awaits p level) (s : State) :
    (waitBusy p level cause s).CutsOnlyInWaits s :=
  .since (waitSamples_cutsOnlyInWaits (s := s.enter p) _ h) (List.suffix_cons _ _)

theorem assertSelect_cutsOnlyInWaits (dir : BtDir) (s : State) : (assertSelect dir s).CutsOnlyInWaits s := by
  refine .since (afterPulse_inWaits (s := s.enter .settleA) fun _ =>
    Run.CutsOnlyInWaits.since (settle_cutsOnlyInWaits _) ?_) (List.suffix_cons _ _)
  cases dir with
  | wr => exact List.suffix_cons _ _
  | rd => exact List.suffix_cons _ _

theorem sendBytes_cutsOnlyInWaits (bytes : List Byte) : ∀ s : State, (sendBytes bytes s).CutsOnlyInWaits s := by
  induction bytes with
  | nil => exact fun s => List.suffix_rfl
  | cons b rest ih => exact fun s => .andThen (afterPulse_inWaits fun _ => List.suffix_cons _ _) fun _ => ih

theorem captureBytes_cutsOnlyInWaits (n : Nat) : ∀ s : State, (captureBytes n s).CutsOnlyInWaits s := by
  induction n with
  | zero => exact fun s => List.suffix_rfl
  | succ n ih => exact fun s => .andThen (afterPulse_inWaits fun _ => List.suffix_cons _ _) fun _ => ih

theorem releaseSelect_cutsOnlyInWaits (dir : BtDir) (readLen : Nat) (s : State) :
    (releaseSelect dir readLen s).CutsOnlyInWaits s := by
  refine .since (afterPulse_inWaits (s := s.enter .settleD) fun _ =>
    Run.CutsOnlyInWaits.since (settle_cutsOnlyInWaits _) ?_) (List.suffix_cons _ _)
  cases dir with
  | wr => exact List.suffix_cons _ _
  | rd => exact List.suffix_cons _ _

theorem finishFrame_cutsOnlyInWaits (dir : BtDir) (readLen : Nat) (s : State) :
    (finishFrame dir readLen s).CutsOnlyInWaits s :=
  .since ((waitBusy_cutsOnlyInWaits .raised (s.onFe FrontEnd.raiseBusy)).andThen fun _ t =>
    (releaseSelect_cutsOnlyInWaits dir readLen t).andThen fun _ => waitBusy_cutsOnlyInWaits .lowered) List.suffix_rfl

theorem writeFrame_cutsOnlyInWaits (bytes : List Byte) (readLen : Nat) (s : State) :
    (writeFrame bytes readLen s).CutsOnlyInWaits s :=
  (assertSelect_cutsOnlyInWaits .wr s).andThen fun _ _ =>
    .since ((sendBytes_cutsOnlyInWaits bytes _).andThen fun _ => finishFrame_cutsOnlyInWaits .wr readLen)
      (List.suffix_cons _ _)

theorem readFrame_cutsOnlyInWaits (n : Nat) (s : State) : (readFrame n s).CutsOnlyInWaits s :=
  .since ((assertSelect_cutsOnlyInWaits .rd _).andThen fun _ _ =>
    .since ((captureBytes_cutsOnlyInWaits n _).andThen fun _ => finishFrame_cutsOnlyInWaits .rd n)
      (List.suffix_cons _ _)) List.suffix_rfl

theorem startExchange_cutsOnlyInWaits (send : List Byte) (s : State) : (startExchange send s).CutsOnlyInWaits s :=
  .since (waitBusy_cutsOnlyInWaits .ready _) List.suffix_rfl

theorem exchange_cutsOnlyInWaits (send : List Byte) (s : State) : (exchange send s).CutsOnlyInWaits s :=
  (startExchange_cutsOnlyInWaits send s).andThen fun _ _ =>
    (writeFrame_cutsOnlyInWaits _ 0 _).andThen fun _ _ => List.suffix_cons _ _

theorem exchangeRead_cutsOnlyInWaits (send : List Byte) (n : Nat) (s : State) :
    (exchangeRead send n s).CutsOnlyInWaits s :=
  (startExchange_cutsOnlyInWaits send s).andThen fun _ _ =>
    (writeFrame_cutsOnlyInWaits _ n _).andThen fun _ t =>
      (readFrame_cutsOnlyInWaits n t).andThen fun _ _ => List.suffix_cons _ _

/-! ## The direct commands, and SetRFOn and SetRFOff (R117, R156, R181, R182) -/

theorem checkOperands_cutsOnlyInWaits (i : Instr) (s : State) : (checkOperands i s).CutsOnlyInWaits s := by
  cases h : paramError s.params i <;> simp only [checkOperands, h]
  · exact List.suffix_rfl
  · exact fun _ hw => nomatch hw

theorem sendCommand_cutsOnlyInWaits (i : Instr) (s : State) : (sendCommand i s).CutsOnlyInWaits s :=
  (checkOperands_cutsOnlyInWaits i s).andThen fun _ _ => .since (exchange_cutsOnlyInWaits _ _) List.suffix_rfl

theorem queryCommand_cutsOnlyInWaits (i : Instr) (s : State) : (queryCommand i s).CutsOnlyInWaits s :=
  (checkOperands_cutsOnlyInWaits i s).andThen fun _ _ => .since (exchangeRead_cutsOnlyInWaits _ _ _) List.suffix_rfl

theorem readRegister_cutsOnlyInWaits (addr : Byte) (s : State) : (readRegister addr s).CutsOnlyInWaits s :=
  .map (queryCommand_cutsOnlyInWaits _ s)

/-- The flag poll raises a BusTimeout of its own, which is none of the waits'. -/
theorem pollFlag_cutsOnlyInWaits (bit n : Nat) : ∀ s : State, (pollFlag bit n s).CutsOnlyInWaits s := by
  induction n with
  | zero =>
    rintro s c ⟨⟩ hc
    exact absurd rfl hc
  | succ n ih =>
    refine fun s => (readRegister_cutsOnlyInWaits 0x02 s).andThen fun v t => ?_
    split
    · exact List.suffix_rfl
    · exact .since (ih _) List.suffix_rfl

theorem getIrqStatus_cutsOnlyInWaits (s : State) : (getIrqStatus s).CutsOnlyInWaits s :=
  (readRegister_cutsOnlyInWaits 0x02 s).andThen fun _ _ => List.suffix_rfl

theorem getTransceiveState_cutsOnlyInWaits (s : State) : (getTransceiveState s).CutsOnlyInWaits s :=
  (readRegister_cutsOnlyInWaits 0x1D s).andThen fun _ _ => List.suffix_rfl

/-! ## The protocol engine up to its finish (R200 to R213) -/

theorem engineCheck_cutsOnlyInWaits (p : ProtocolRequest) (s : State) : (engineCheck p s).CutsOnlyInWaits s :=
  .since (checkOperands_cutsOnlyInWaits _ _) List.suffix_rfl

theorem crcControl_cutsOnlyInWaits (addr : Byte) (c : CrcControl) (s : State) : (crcControl addr c s).CutsOnlyInWaits s := by
  cases c with
  | on => exact sendCommand_cutsOnlyInWaits _ s
  | off => exact sendCommand_cutsOnlyInWaits _ s
  | keep => exact List.suffix_rfl

theorem crcStage_cutsOnlyInWaits (p : ProtocolRequest) (s : State) : (crcStage p s).CutsOnlyInWaits s :=
  (crcControl_cutsOnlyInWaits 0x19 p.crcTx s).andThen fun _ t =>
    (crcControl_cutsOnlyInWaits 0x12 p.crcRx t).andThen fun _ _ => List.suffix_cons _ _

theorem readyCheck_cutsOnlyInWaits (s : State) : (readyCheck s).CutsOnlyInWaits s := by
  unfold readyCheck
  split
  · exact .map (getTransceiveState_cutsOnlyInWaits s)
  · exact List.suffix_rfl

theorem transceiveStage_cutsOnlyInWaits (p : ProtocolRequest) (s : State) : (transceiveStage p s).CutsOnlyInWaits s := by
  unfold transceiveStage
  split
  · exact .andThen (.andThen (sendCommand_cutsOnlyInWaits _ s) fun _ _ => sendCommand_cutsOnlyInWaits _ _) fun _ =>
      readyCheck_cutsOnlyInWaits
  · exact List.suffix_rfl

theorem awaitStart_cutsOnlyInWaits (n : Nat) : ∀ s : State, (awaitStart n s).CutsOnlyInWaits s := by
  induction n with
  | zero => exact fun s => List.suffix_rfl
  | succ n ih =>
    refine fun s => (getIrqStatus_cutsOnlyInWaits s).andThen fun v t => ?_
    split
    · exact List.suffix_rfl
    · exact .since (ih _) List.suffix_rfl

theorem readLength_cutsOnlyInWaits (s : State) : (readLength s).CutsOnlyInWaits s :=
  (readRegister_cutsOnlyInWaits 0x13 s).andThen fun _ _ => List.suffix_rfl

end

/-! ## Outcomes that an operation delivers itself -/

/-- The outcome is no BusTimeout. -/
def OpOutcome.Delivered (o : OpOutcome) : Prop := ∀ cause, o ≠ .busTimeout cause

theorem OpOutcome.delivered_ok : OpOutcome.ok.Delivered := nofun

/-- An operation delivers its own completion record with an outcome that is no BusTimeout, or ends as its pieces do. -/
abbrev Run.Delivers (s : State) (m : Run Completion) : Prop :=
  m.Sat (fun c _ => c.outcome.Delivered) (StoppedInWait s)

section

variable {s : State} {α : Type}

theorem Run.Delivers.since {t : State} {m : Run Completion} (h : m.Delivers t) (hs : s.trace <:+ t.trace) : m.Delivers s :=
  h.mono (fun _ _ => id) fun _ _ hw => hw.since hs

/-- The last piece of an operation. -/
theorem Run.CutsOnlyInWaits.delivers {m : Run α} {f : α → State → Run Completion} (h : m.CutsOnlyInWaits s)
    (hf : ∀ a t, (f a t).Delivers t) : (m.andThen f).Delivers s :=
  Run.Sat.andThen h fun a t ht => (hf a t).since ht

theorem Run.CutsOnlyInWaits.delivers_ok {m : Run α} {f : α → Completion} (h : m.CutsOnlyInWaits s)
    (hf : ∀ a, (f a).outcome = .ok) : (m.map f).Delivers s :=
  Run.Sat.map (h.mono (fun a _ _ => (hf a).symm ▸ OpOutcome.delivered_ok) fun _ _ => id)

theorem switchField_delivers (i : Instr) (bit : Nat) (s : State) : (switchField i bit s).Delivers s :=
  (sendCommand_cutsOnlyInWaits i s).delivers fun _ t =>
    Run.CutsOnlyInWaits.delivers (s := t) (.since (pollFlag_cutsOnlyInWaits bit _ _) List.suffix_rfl) fun _ u =>
      Run.CutsOnlyInWaits.delivers_ok (s := u) (.since (sendCommand_cutsOnlyInWaits _ _) List.suffix_rfl) fun _ => rfl

/-! ### The engine -/

theorem lengthVerdict_delivered {n : Nat} {o : OpOutcome} (h : lengthVerdict n = .inl o) : o.Delivered := by
  unfold lengthVerdict at h
  split at h
  · cases h
    exact nofun
  · split at h
    · cases h
      exact nofun
    · cases h

theorem classifyResponse_delivered (resp : List Byte) : (classifyResponse resp).1.Delivered := by
  unfold classifyResponse
  dsimp only
  split
  · split <;> exact nofun
  · exact nofun

/-- What the front half of the engine leads to: an outcome to finish with is no BusTimeout. -/
abbrev Run.Leads (s : State) (m : Run (OpOutcome ⊕ Nat)) : Prop :=
  m.Sat (fun v t => s.trace <:+ t.trace ∧ ∀ o, v = .inl o → o.Delivered) (StoppedInWait s)

theorem Run.CutsOnlyInWaits.leads {m : Run α} {f : α → State → Run (OpOutcome ⊕ Nat)} (h : m.CutsOnlyInWaits s)
    (hf : ∀ a t, (f a t).Leads t) : (m.andThen f).Leads s :=
  Run.Sat.andThen h fun a t ht => (hf a t).mono (fun _ _ hv => ⟨ht.trans hv.1, hv.2⟩) fun _ _ hw => hw.since ht

theorem transmitAndAwait_leads (p : ProtocolRequest) (s : State) : (transmitAndAwait p s).Leads s := by
  refine (sendCommand_cutsOnlyInWaits _ s).leads fun _ t =>
    Run.CutsOnlyInWaits.leads (s := t) (.since (awaitStart_cutsOnlyInWaits _ _) (List.suffix_cons _ _)) fun seen u => ?_
  cases seen with
  | true => exact (readLength_cutsOnlyInWaits u).leads fun n v => ⟨List.suffix_rfl, fun _ => lengthVerdict_delivered⟩
  | false =>
    refine ⟨List.suffix_rfl, ?_⟩
    rintro _ ⟨⟩
    exact nofun

theorem engineFront_leads (p : ProtocolRequest) (s : State) : (engineFront p s).Leads s := by
  refine (engineCheck_cutsOnlyInWaits p s).leads fun _ t => (crcStage_cutsOnlyInWaits p t).leads fun _ u =>
    Run.CutsOnlyInWaits.leads (s := u) (.since (transceiveStage_cutsOnlyInWaits p _) (List.suffix_cons _ _)) fun bad v => ?_
  cases bad with
  | some n =>
    refine ⟨List.suffix_rfl, ?_⟩
    rintro _ ⟨⟩
    exact nofun
  | none => exact transmitAndAwait_leads p v

/-- The outcome finished with is delivered, unless the clear of the flags ends the operation (R216, R277). -/
theorem finish_delivers {c : Completion} (h : c.outcome.Delivered) (s : State) : (finish c s).Delivers s :=
  Run.CutsOnlyInWaits.delivers (.since (sendCommand_cutsOnlyInWaits _ _) (List.suffix_cons _ _)) fun _ _ => h

theorem engineBack_delivers (p : ProtocolRequest) (n : Nat) (s : State) : (engineBack p n s).Delivers s := by
  refine (queryCommand_cutsOnlyInWaits _ s).delivers fun resp t => (finish_delivers ?_ _).since (List.suffix_cons _ _)
  show (if p.classify then classifyResponse resp else (.ok, none)).1.Delivered
  split
  · exact classifyResponse_delivered resp
  · exact nofun

theorem engine_delivers (p : ProtocolRequest) (s : State) : (engine p s).Delivers s := by
  refine (engineFront_leads p s).andThen fun v t ⟨ht, ho⟩ => ?_
  cases v with
  | inl o => exact (finish_delivers (ho o rfl) t).since ht
  | inr n => exact (engineBack_delivers p n t).since ht

end

/-! ## The end of an operation, and the step -/

/-- What a completion record with the BusTimeout of a wait says of the operation that started in `s` and ended in `t`. -/
def TimeoutEndsAtOnce (s t : State) : Prop :=
  ∀ cause result, t.completion = some ⟨.busTimeout cause, result⟩ → cause ≠ .irqPoll →
    result = .none ∧ t.xcvr.isIdle = true ∧ CutInWait cause s t

section

variable {s t : State}

theorem TimeoutEndsAtOnce.complete {c : Completion} (h : c.outcome.Delivered) : TimeoutEndsAtOnce s (t.complete c) := by
  rintro cause result ⟨⟩ -
  exact absurd rfl (h cause)

theorem finishRun_timeout {m : Run Completion} (h : m.Delivers s) : TimeoutEndsAtOnce s (finishRun m) := by
  match m, h with
  | .ok c t, h => exact .complete h
  | .stop (.outcome o) t, h =>
    rintro cause result ⟨⟩ hc
    exact ⟨rfl, rfl, h cause rfl hc⟩
  | .stop .reset t, _ => exact nofun

/-- The engine leaves its stage when a BusTimeout ends it, which is no traffic (R202, R219). -/
theorem StoppedInWait.leaveStage {why : Stop} (h : StoppedInWait s why t) : StoppedInWait s why (leaveStage t) := by
  unfold Machine.leaveStage
  split
  · exact h
  · intro cause hw hc
    obtain ⟨later, level, before, ht, hl, ha⟩ := h cause hw hc
    refine ⟨.stage .idle :: later, level, before, congrArg (Event.stage .idle :: ·) ht, ?_, ha⟩
    exact List.forall_mem_cons.2 ⟨rfl, hl⟩

theorem finishEngine_timeout {m : Run Completion} (h : m.Delivers s) : TimeoutEndsAtOnce s (finishEngine m) := by
  match m, h with
  | .ok c t, h => exact finishRun_timeout (m := .ok c t) h
  | .stop (.outcome o) t, h =>
    exact finishRun_timeout (m := .stop (.outcome o) (leaveStage t)) (StoppedInWait.leaveStage h)
  | .stop .reset t, h => exact finishRun_timeout (m := .stop .reset t) h

theorem performOperation_timeout {body : State → Run Completion} (hb : ∀ u, (body u).Delivers u)
    (h : performOperation body s = .next t) : TimeoutEndsAtOnce s t := by
  rw [eq_of_answer_next h]
  exact finishRun_timeout (hb s.accept)

theorem endUnsupported_timeout (h : (.next (endUnsupported s) : Host.Outcome State Fault Refusal) = .next t) :
    TimeoutEndsAtOnce s t := by
  rw [← Host.Outcome.next.inj h]
  exact .complete nofun

theorem exec_timeout {i : Instr} (h : exec i s = .next t) : TimeoutEndsAtOnce s t := by
  cases i with
  | writeRegister | writeRegisterOrMask | writeRegisterAndMask | writeEEPROM | sendData | loadRFConfig =>
    exact performOperation_timeout (fun u => (sendCommand_cutsOnlyInWaits _ u).delivers_ok fun _ => rfl) h
  | readEEPROM | readData => exact performOperation_timeout (fun u => (queryCommand_cutsOnlyInWaits _ u).delivers_ok fun _ => rfl) h
  | readRegister addr => exact performOperation_timeout (fun u => (readRegister_cutsOnlyInWaits addr u).delivers_ok fun _ => rfl) h
  | rfOn | rfOff => exact performOperation_timeout (switchField_delivers _ _) h
  | switchMode => exact endUnsupported_timeout h

theorem opIsIrqAsserted_timeout (h : opIsIrqAsserted s = .next t) : TimeoutEndsAtOnce s t := by
  unfold opIsIrqAsserted at h
  split at h
  · exact performOperation_timeout (body := sampleIrq) (fun _ => OpOutcome.delivered_ok) h
  · exact endUnsupported_timeout h

theorem runRequest_timeout {r : Request} (h : runRequest r s = .next t) : TimeoutEndsAtOnce s t := by
  cases r with
  | direct i => exact exec_timeout h
  | encoded e =>
    simp only [runRequest] at h
    split at h
    · exact exec_timeout h
    · exact endUnsupported_timeout h
    · cases h
  | getIrqStatus => exact performOperation_timeout (fun u => (getIrqStatus_cutsOnlyInWaits u).delivers_ok fun _ => rfl) h
  | clearIrqStatus mask => exact performOperation_timeout (fun u => (sendCommand_cutsOnlyInWaits _ u).delivers_ok fun _ => rfl) h
  | getTransceiveState => exact performOperation_timeout (fun u => (getTransceiveState_cutsOnlyInWaits u).delivers_ok fun _ => rfl) h
  | isIrqAsserted => exact opIsIrqAsserted_timeout h
  | protocolTransact p =>
    rw [eq_of_answer_next h]
    exact finishEngine_timeout (engine_delivers p s.accept)
  | unlisted kind => exact endUnsupported_timeout h

end

/-- Settles O60: the last sample of BUSY is that of the wait that ran out, and what comes after it is no traffic. -/
theorem busTimeoutEndsAtOnce : Obligations.BusTimeoutEndsAtOnce := by
  intro s t r rest cause result hr hst hcomp hcause
  have hbusy : s.xcvr.xcBusy = false := by
    cases hb : s.xcvr.xcBusy with
    | false => rfl
    | true => rw [step, if_pos hb] at hst; cases hst
  rw [step_of_idle hbusy hr] at hst
  obtain ⟨hres, hidle, later, level, before, htr, hl, ha⟩ := runRequest_timeout hst cause result hcomp hcause
  obtain ⟨hframes, hsent, hcaptured⟩ := traffic_of_mute fun e he => Event.isMute_of_isEnding (hl e he)
  have hlast : ∀ l, Event.busy l ∉ later := fun l hm => Bool.false_ne_true (hl _ hm)
  refine ⟨hres, hidle, later, !level, before, htr, hlast, hframes, hsent, hcaptured, ?_⟩
  generalize hph : phaseNow (before ++ s.trace) = ph
  have ha' : cause.Awaits ph level := hph ▸ ha
  cases ha' with
  | ready => exact ⟨fun _ => ⟨rfl, rfl⟩, nofun, nofun⟩
  | raised => exact ⟨nofun, fun _ => ⟨rfl, rfl⟩, nofun⟩
  | lowered => exact ⟨nofun, nofun, fun _ => ⟨rfl, rfl⟩⟩

end Sys2Proof.Machine
end

section
/-! SUPPORT. The register commands with a front-end that answers (R150 to R155): all three writes leave a plain storage register
written with a value, a read leaves it as it is, and a register outside `DEFINED_REGS` is never asked for. -/

namespace Sys2Proof.Machine

/-! ## A plain storage register written -/

theorem isPlainReg_iff (a : Byte) : isPlainReg a = true ↔ isStatusReg a = false ∧ a ≠ 0x03 := by
  simp [isPlainReg]

/-- What a register write, plain or masked, makes of the store, where it leaves this value in a plain storage register (R63, R83,
R151 to R153). -/
def FeStore.written (p : Params) (kind : FeKind) (addr : Byte) (new : Word) (f : FeStore) : FeStore :=
  (f.setReg addr new).commandField p kind addr f.systemConfig

section

variable {p : Params} {kind : FeKind} {addr : Byte} (new : Word) (f : FeStore)

theorem FeStore.reactWriteRegister_plain (ha : isPlainReg addr = true) :
    f.reactWriteRegister p kind addr new = f.written p kind addr new := by
  obtain ⟨hs, h3⟩ := (isPlainReg_iff addr).1 ha
  exact (if_neg h3).trans (if_neg (by simp [hs]))

theorem FeStore.reactOrMask_plain (ha : isPlainReg addr = true) :
    f.reactOrMask p kind addr new = f.written p kind addr (f.regRead p kind addr ||| new) := if_pos ha

theorem FeStore.reactAndMask_plain (ha : isPlainReg addr = true) :
    f.reactAndMask p kind addr new = f.written p kind addr (f.regRead p kind addr &&& new) := if_pos ha

/-- Beside the register, all that such a write can move is the transceive state, but for SYSTEM_CONFIG of FE_REF. -/
theorem FeStore.written_eq (h0 : kind = .reference → addr ≠ 0x00) :
    ∃ ts draws, f.written p kind addr new = { f.setReg addr new with ts := ts, draws := draws } := by
  cases kind with
  | reference => exact ⟨_, _, FeStore.commandField_other p .reference _ _ (h0 rfl)⟩
  | unconstrained => exact FeStore.commandField_unconstrained p addr _ _

/-- A write that leaves the command field as it was moves nothing beside the register (R83). -/
theorem FeStore.written_unchanged (h0 : kind = .reference → addr ≠ 0x00)
    (hc : ¬ (addr = 0x00 ∧ new &&& p.cmdMask ≠ f.systemConfig &&& p.cmdMask)) :
    f.written p kind addr new = f.setReg addr new := by
  by_cases ha : addr = 0x00
  · subst ha
    have hsame : new &&& p.cmdMask = f.systemConfig &&& p.cmdMask := not_not.1 fun hne => hc ⟨rfl, hne⟩
    cases kind with
    | reference => exact absurd rfl (h0 rfl)
    | unconstrained => exact FeStore.commandField_same p 0x00 _ hsame
  · exact FeStore.commandField_other p kind _ _ ha

/-- The transceive state is read at the address of RF_STATUS only. -/
theorem FeStore.regRead_ts (p : Params) (kind : FeKind) {a : Byte} (ts : BitVec 3) (draws : Nat) (f : FeStore)
    (h : a ≠ 0x1D) : ({ f with ts := ts, draws := draws } : FeStore).regRead p kind a = f.regRead p kind a := by
  have hn : a.toNat ≠ 0x1D := fun e => h (BitVec.eq_of_toNat_eq e)
  unfold FeStore.regRead
  split <;> simp_all

/-- The register written reads as the value, SYSTEM_CONFIG of FE_REF too (R155). -/
theorem FeStore.regRead_written_self (ha : isPlainReg addr = true) :
    (f.written p kind addr new).regRead p kind addr = new := by
  by_cases h0 : kind = .reference → addr ≠ 0x00
  · obtain ⟨ts, draws, e⟩ := f.written_eq (p := p) new h0
    have hne : addr ≠ 0x1D := by rintro rfl; cases ha
    rw [e, FeStore.regRead_ts p kind ts draws _ hne, FeStore.regRead_setReg_self p kind new f ha]
  · obtain ⟨rfl, rfl⟩ : kind = .reference ∧ addr = 0x00 := by simpa using h0
    obtain ⟨ts, irqStatus, e⟩ := f.configured_eq p new
    exact congrArg (FeStore.regRead p .reference 0x00) e

end

section

variable {s t u : State} {addr : Byte} {new : Word}

/-- What is claimed of a register write, from the store it leaves. -/
theorem registerWritten_of_store (h : BlockAround s t) (ha : isPlainReg addr = true)
    (h0 : s.fe.kind = .reference → addr ≠ 0x00)
    (hs : t.fe.store = s.fe.store.written s.params s.fe.kind addr new) : RegisterWritten s t addr new := by
  obtain ⟨ts, draws, he⟩ := s.fe.store.written_eq (p := s.params) new h0
  obtain ⟨hts, -, -, hrest, heeprom, htxbuf, hbits, hrxbuf, hrf, htx, hrx, htag, hepoch, -⟩ := s.fe.store.setReg_rest addr new
  have hne : (0x1D : Byte) ≠ addr := by rintro rfl; cases ha
  exact
    { value := by rw [h.reg_eq hs]; exact FeStore.regRead_written_self new _ ha
      others := ⟨fun a hm => by
          obtain ⟨hself, h1d⟩ : a ≠ addr ∧ a ≠ 0x1D := by simpa using hm
          rw [h.reg_eq hs, he, FeStore.regRead_ts _ _ ts draws _ h1d]
          exact FeStore.regRead_setReg_other _ _ new _ hself,
        fun hm => absurd (by simp) hm⟩
      rfStatusRest := by rw [hs, he]; exact hrest
      rfStatus := fun hc => by
        have hsame := s.fe.store.written_unchanged new h0 hc
        exact ⟨by rw [h.reg_eq hs, hsame]; exact FeStore.regRead_setReg_other _ _ new _ hne, by rw [hs, hsame]; exact hts⟩
      store :=
        { buffers := ⟨by rw [hs, he]; exact htxbuf, by rw [hs, he]; exact hbits, by rw [hs, he]; exact hrxbuf⟩
          radio := ⟨by rw [hs, he]; exact hrf, by rw [hs, he]; exact htx, by rw [hs, he]; exact hrx,
            by rw [hs, he]; exact htag⟩
          eeprom := fun a => by simp only [State.eepromAt, FeStore.eepromByte, hs, he, heeprom, hepoch] } }

/-! ## The commands from the port -/

/-- A register write, plain or masked, and the value it leaves in the register. -/
inductive Writes (s : State) (addr : Byte) : Instr → Word → Prop where
  | value (v : Word) : Writes s addr (.writeRegister addr v) v
  | orMask (m : Word) : Writes s addr (.writeRegisterOrMask addr m) (s.reg addr ||| m)
  | andMask (m : Word) : Writes s addr (.writeRegisterAndMask addr m) (s.reg addr &&& m)

/-- The front-end between two operations, with this store. -/
def FrontEnd.settled (f : FeStore) (fe : FrontEnd) : FrontEnd :=
  { fe with store := f, busy := false, frameIn := [], reply := [] }

/-- A register write from the port: one frame, and the register is written. -/
theorem exec_writes {i : Instr} (hq : s.Quiet) (hd : registerDefined s.params addr = true) (ha : isPlainReg addr = true)
    (hw : Writes s addr i new) :
    ∃ t, exec i s = .next t ∧ DirectDone s t .none 1 (encode i).frame [] ∧
      t.fe = s.fe.settled (s.fe.store.written s.params s.fe.kind addr new) := by
  have hp : registerError s.params addr = none := (registerError_none _ _).2 hd
  cases hw with
  | value =>
    have hs := ((isPlainReg_iff addr).1 ha).1
    obtain ⟨t, ht, hdone, hfe⟩ := performOperation_send (i := .writeRegister addr new) hq hp
      (fun _ => if_neg (by simp [hs])) (decode_encode rfl) rfl
    exact ⟨t, ht, hdone, by rw [hfe, ← FeStore.reactWriteRegister_plain new _ ha]; rfl⟩
  | orMask m =>
    obtain ⟨t, ht, hdone, hfe⟩ := performOperation_send (i := .writeRegisterOrMask addr m) hq hp
      (fun _ => if_pos ha) (decode_encode rfl) rfl
    exact ⟨t, ht, hdone, by rw [hfe, State.reg, ← FeStore.reactOrMask_plain m _ ha]; rfl⟩
  | andMask m =>
    obtain ⟨t, ht, hdone, hfe⟩ := performOperation_send (i := .writeRegisterAndMask addr m) hq hp
      (fun _ => if_pos ha) (decode_encode rfl) rfl
    exact ⟨t, ht, hdone, by rw [hfe, State.reg, ← FeStore.reactAndMask_plain m _ ha]; rfl⟩

/-- The same, but for SYSTEM_CONFIG of FE_REF, with what is claimed of it. -/
theorem exec_writes_registerWritten {i : Instr} (hq : s.Quiet) (hd : registerDefined s.params addr = true)
    (ha : isPlainReg addr = true) (h0 : s.fe.kind = .reference → addr ≠ 0x00) (hw : Writes s addr i new) :
    ∃ t, exec i s = .next t ∧ DirectDone s t .none 1 (encode i).frame [] ∧ RegisterWritten s t addr new := by
  obtain ⟨t, ht, hdone, hfe⟩ := exec_writes hq hd ha hw
  exact ⟨t, ht, hdone, registerWritten_of_store hdone.around ha h0 (congrArg FrontEnd.store hfe)⟩

/-- ReadRegister, with its two changes of the value joined. -/
theorem execReadRegister_eq (addr : Byte) (s : State) : execReadRegister addr s =
    performOperation (fun s => (queryCommand (.readRegister addr) s).map fun b => ⟨.ok, .value (unle32 b)⟩) s := by
  simp only [execReadRegister, readRegister, Run.map_map]

/-- ReadRegister from the port: two frames, and the register's value. -/
theorem exec_readRegister (hq : s.Quiet) (hd : registerDefined s.params addr = true)
    (h3 : s.fe.kind = .reference → addr ≠ 0x03) :
    ∃ t, exec (.readRegister addr) s = .next t ∧
      DirectDone s t (.value (s.reg addr)) 2 [0x04, addr] (le32 (s.reg addr)) ∧
      t.fe = s.fe.settled (s.fe.store.reactReadRegister addr) := by
  obtain ⟨t, ht, hdone, hfe⟩ := performOperation_query (i := .readRegister addr) (b := le32 (s.reg addr))
    (r := fun b => .value (unle32 b)) hq ((registerError_none _ _).2 hd) (fun hk => if_neg (h3 hk)) rfl rfl rfl
  rw [unle32_le32] at hdone
  exact ⟨t, (execReadRegister_eq addr s).trans ht, hdone, hfe⟩

/-- A read changes nothing but what the next read of IRQ_CLEAR returns (R82, U5). -/
theorem readRegister_keeps (h : BlockAround s t) (hs : t.fe.store = s.fe.store.reactReadRegister addr) :
    RegistersKeptBut (if addr = 0x03 then [0x03] else []) s t ∧ StoreKept s t := by
  by_cases h3 : addr = 0x03
  · have hs' : t.fe.store = { s.fe.store with clearReads := s.fe.store.clearReads + 1 } := hs.trans (if_pos h3)
    rw [if_pos h3]
    refine ⟨⟨fun a hm => ?_, fun _ => by rw [hs']⟩, ?_⟩
    · have hn : a.toNat ≠ 0x03 := fun e => hm (List.mem_singleton.2 (BitVec.eq_of_toNat_eq e))
      rw [h.reg_eq hs', State.reg]
      unfold FeStore.regRead
      split <;> simp_all [FeStore.rfStatus]
    · exact
        { buffers := by constructor <;> rw [hs']
          radio := by constructor <;> rw [hs']
          eeprom := fun a => by rw [State.eepromAt, hs']; rfl }
  · have hs' : t.fe.store = s.fe.store := hs.trans (if_neg h3)
    rw [if_neg h3]
    refine ⟨⟨fun a _ => h.reg_eq hs' a, fun _ => by rw [hs']⟩, ?_⟩
    exact
      { buffers := by constructor <;> rw [hs']
        radio := by constructor <;> rw [hs']
        eeprom := fun a => by rw [State.eepromAt, hs']; rfl }

/-! ## One command after another -/

/-- The machine is quiet again after a register command. -/
theorem State.Quiet.settled {f : FeStore} (hq : s.Quiet) (h : BlockAround s t) (hfe : t.fe = s.fe.settled f) : t.Quiet :=
  { fe := by
      have hp := (FrontEnd.cooperative_iff _).1 hq.fe
      rw [hfe]
      exact (FrontEnd.cooperative_iff _).2 ⟨rfl, hp.2⟩
    noReset := h.resetIn.trans hq.noReset }

theorem BlockAround.trans (h : BlockAround s t) (h' : BlockAround t u) : BlockAround s u :=
  { idle := h'.idle, rst := h'.rst.trans h.rst, params := h'.params.trans h.params
    resetIn := h'.resetIn.trans h.resetIn, feKind := h'.feKind.trans h.feKind, feIrq := h'.feIrq.trans h.feIrq
    feInputs := h'.feInputs.trans h.feInputs }

/-- Two ends of operations that began in one state have the same around them. -/
theorem BlockAround.alike (h : BlockAround s t) (h' : BlockAround s u) : BlockAround t u :=
  { idle := h'.idle, rst := h'.rst.trans h.rst.symm, params := h'.params.trans h.params.symm
    resetIn := h'.resetIn.trans h.resetIn.symm, feKind := h'.feKind.trans h.feKind.symm
    feIrq := h'.feIrq.trans h.feIrq.symm, feInputs := h'.feInputs.trans h.feInputs.symm }

/-- Two ends with one front-end and one completion record have nothing between them. -/
theorem writtenAlike_of_fe (hc : u.completion = t.completion) (h : BlockAround t u) (hfe : u.fe = t.fe) :
    WrittenAlike s t u addr new :=
  { completion := hc
    registers := ⟨fun a _ => by rw [State.reg, State.reg, hfe, h.params], fun _ => by rw [hfe]⟩
    rfStatusRest := by rw [hfe]
    store :=
      { buffers := by constructor <;> rw [hfe]
        radio := by constructor <;> rw [hfe]
        eeprom := fun a => by rw [State.eepromAt, hfe]; rfl }
    around := h
    busy := by rw [hfe]
    whole := fun _ => hfe }

/-- A register write that leaves a value, and WriteRegister of that value after a read: both write the same store. -/
theorem exec_writes_after_read {i : Instr} (hq : s.Quiet) (hd : registerDefined s.params addr = true)
    (ha : isPlainReg addr = true) (hread : BlockAround s t) (hfe : t.fe = s.fe.settled s.fe.store)
    (hw : Writes s addr i new) :
    ∃ one two, exec (.writeRegister addr new) t = .next one ∧ exec i s = .next two ∧
      WrittenAlike s one two addr new := by
  obtain ⟨one, hone, hdone, hfe1⟩ := exec_writes (hq.settled hread hfe) (by rwa [hread.params]) ha (.value new)
  obtain ⟨two, htwo, hdone', hfe2⟩ := exec_writes hq hd ha hw
  refine ⟨one, two, hone, htwo, writtenAlike_of_fe ?_ ((hread.trans hdone.around).alike hdone'.around) ?_⟩
  · rw [hdone'.completion, hdone.completion]
  · rw [hfe2, hfe1, hread.params, hfe]
    rfl

end

/-! ## The statements -/

/-- Settles O11: the frame leaves the register written with the value. -/
theorem writeRegisterStores : Obligations.WriteRegisterStores :=
  fun _ _ v hq hd ha h0 => exec_writes_registerWritten hq hd ha h0 (.value v)

/-- Settles O14: the frame leaves the register written with its old value OR the mask. -/
theorem orMaskSets : Obligations.OrMaskSets :=
  fun _ _ m hq hd ha h0 => exec_writes_registerWritten hq hd ha h0 (.orMask m)

/-- Settles O15: the frame leaves the register written with its old value AND the mask. -/
theorem andMaskClears : Obligations.AndMaskClears :=
  fun _ _ m hq hd ha h0 => exec_writes_registerWritten hq hd ha h0 (.andMask m)

/-- Settles O16: the read delivers the register's value and leaves the store as it is, so that both ways write the same store. -/
theorem maskedWriteIsReadModifyWrite : Obligations.MaskedWriteIsReadModifyWrite := by
  intro s addr m hq hd ha
  have h3 := ((isPlainReg_iff addr).1 ha).2
  obtain ⟨read, hr, hdone, hfe⟩ := exec_readRegister hq hd fun _ => h3
  rw [show s.fe.store.reactReadRegister addr = s.fe.store from if_neg h3] at hfe
  exact ⟨read, s.reg addr, hr, hdone.completion, exec_writes_after_read hq hd ha hdone.around hfe (.orMask m),
    exec_writes_after_read hq hd ha hdone.around hfe (.andMask m)⟩

/-- Settles O18: the value is the one the front-end prepared, and the read changes nothing else. -/
theorem readRegisterReads : Obligations.ReadRegisterReads := by
  intro s addr hq hd h3
  obtain ⟨t, ht, hdone, hfe⟩ := exec_readRegister hq hd h3
  exact ⟨t, ht, hdone, readRegister_keeps hdone.around (congrArg FrontEnd.store hfe)⟩

/-- Settles O19: the read delivers the register's value, and the write has left the value written there. -/
theorem registerRoundTrip : Obligations.RegisterRoundTrip := by
  intro s addr v hq hd ha
  have h3 := ((isPlainReg_iff addr).1 ha).2
  obtain ⟨t, ht, hdone, hfe⟩ := exec_writes hq hd ha (.value v)
  obtain ⟨u, hu, hdone', -⟩ := exec_readRegister (hq.settled hdone.around hfe) (by rwa [hdone.around.params]) fun _ => h3
  have hv : t.reg addr = v := by
    rw [hdone.around.reg_eq (congrArg FrontEnd.store hfe)]
    exact FeStore.regRead_written_self v _ ha
  exact ⟨t, u, ht, hu, by rw [hdone'.completion, hv]⟩

/-- Settles O20: each of the four commands fails its operand check. -/
theorem undefinedRegisterRejected : Obligations.UndefinedRegisterRejected := by
  intro s i addr x hd hi
  have hp : registerError s.params addr = some .badRegister := if_neg (by simp [hd])
  rcases hi with rfl | rfl | rfl | rfl
  · exact performOperation_send_rejected (i := .writeRegister addr x) hp
  · exact performOperation_send_rejected (i := .writeRegisterOrMask addr x) hp
  · exact performOperation_send_rejected (i := .writeRegisterAndMask addr x) hp
  · rw [exec, execReadRegister_eq]
    exact performOperation_query_rejected (i := .readRegister addr) hp

end Sys2Proof.Machine
end

section
/-! SUPPORT. The EEPROM commands with a front-end that answers (R160 to R163): a write stores its bytes and touches nothing else of
the store, a read delivers the bytes stored, and a range outside the EEPROM is never asked for. -/

namespace Sys2Proof.Machine

/-! ## The bytes of the EEPROM -/

section

variable {addr : Nat} {data : List Byte} (f : FeStore)

/-- Every byte of the data is read at its own address (R162). -/
theorem FeStore.eepromByte_reactWriteEEPROM_inside (h : addr + data.length ≤ Config.eepromLimit) {k : Nat}
    (hk : k < data.length) : (f.reactWriteEEPROM addr data).eepromByte (addr + k) = data[k] := by
  have hin : addr ≤ addr + k ∧ addr + k < addr + data.length := by omega
  rw [FeStore.eepromByte, FeStore.reactWriteEEPROM, Memory.read_writeBytes data addr _ _ h, if_pos hin,
    Nat.add_sub_cancel_left, List.getElem?_eq_getElem hk, Option.getD_some]

/-- A byte the data does not reach is read as before, a free value where nothing was ever written (R162, U18). -/
theorem FeStore.eepromByte_reactWriteEEPROM_outside (h : addr + data.length ≤ Config.eepromLimit) {a : Nat}
    (ha : a < addr ∨ addr + data.length ≤ a) : (f.reactWriteEEPROM addr data).eepromByte a = f.eepromByte a := by
  have hout : ¬ (addr ≤ a ∧ a < addr + data.length) := by omega
  rw [FeStore.eepromByte, FeStore.reactWriteEEPROM, Memory.read_writeBytes data addr _ _ h, if_neg hout,
    FeStore.eepromByte]

/-- No register is kept in the EEPROM. -/
theorem FeStore.regRead_reactWriteEEPROM (p : Params) (kind : FeKind) (a : Byte) :
    (f.reactWriteEEPROM addr data).regRead p kind a = f.regRead p kind a := rfl

@[simp] theorem FeStore.eepromBytes_length (addr n : Nat) : (f.eepromBytes addr n).length = n := by
  simp [FeStore.eepromBytes]

theorem FeStore.eepromBytes_getElem (addr n : Nat) {k : Nat} (hk : k < (f.eepromBytes addr n).length) :
    (f.eepromBytes addr n)[k] = f.eepromByte (addr + k) := by
  simp [FeStore.eepromBytes]

end

/-! ## What the commands leave, and the range check -/

section

variable {s t : State}

/-- An operation that leaves the store of the front-end as it was leaves every register and all the rest of it as before. -/
theorem BlockAround.kept_of_store (h : BlockAround s t) (hs : t.fe.store = s.fe.store) :
    RegistersKeptBut [] s t ∧ StoreKept s t := by
  refine ⟨⟨fun a _ => h.reg_eq hs a, fun _ => by rw [hs]⟩, ?_⟩
  exact
    { buffers := by constructor <;> rw [hs]
      radio := by constructor <;> rw [hs]
      eeprom := fun a => by rw [State.eepromAt, hs]; rfl }

/-- An operation that leaves the store with bytes written to the EEPROM leaves everything beside the EEPROM as before. -/
theorem BlockAround.kept_of_reactWriteEEPROM {addr : Nat} {data : List Byte} (h : BlockAround s t)
    (hs : t.fe.store = s.fe.store.reactWriteEEPROM addr data) :
    RegistersKeptBut [] s t ∧ BuffersKept s t ∧ RadioKept s t := by
  refine ⟨⟨fun a _ => ?_, fun _ => by rw [hs]; rfl⟩, ?_, ?_⟩
  · rw [h.reg_eq hs]
    exact FeStore.regRead_reactWriteEEPROM _ _ _ a
  · constructor <;> rw [hs] <;> rfl
  · constructor <;> rw [hs] <;> rfl

end

/-- A range outside the EEPROM, or an empty one, fails the check (R160, D10). -/
theorem eepromError_badEepromRange {addr length : Nat} (h : addr > 254 ∨ addr + length > 254 ∨ length = 0) :
    eepromError addr length = some .badEepromRange := by
  refine if_neg fun hin => ?_
  have := (eepromInRange_iff addr length).1 hin
  omega

/-! ## The statements -/

/-- Settles O22: the reaction to the frame is to write the data to the EEPROM, and nothing else of the store changes. -/
theorem writeEepromStores : Obligations.WriteEepromStores := by
  intro s addr data hq hr
  have hp : paramError s.params (.writeEEPROM addr data) = none := (eepromError_none _ _).2 hr
  obtain ⟨-, hlimit, -⟩ := (eepromInRange_iff _ _).1 hr
  obtain ⟨t, ht, hdone, hfe⟩ := performOperation_send (i := .writeEEPROM addr data) hq hp (fun _ => rfl)
    (decode_encode (wf_of_paramError_none hp)) rfl
  have hs : t.fe.store = s.fe.store.reactWriteEEPROM addr data := congrArg FrontEnd.store hfe
  refine ⟨t, ht, hdone, fun k hk => ?_, fun a ha => ?_, hdone.around.kept_of_reactWriteEEPROM hs⟩
  · rw [State.eepromAt, hs]
    exact FeStore.eepromByte_reactWriteEEPROM_inside _ hlimit hk
  · rw [State.eepromAt, hs]
    exact FeStore.eepromByte_reactWriteEEPROM_outside _ hlimit ha

/-- Settles O23: the bytes delivered are those the front-end prepared, and the read leaves the store as it is. -/
theorem readEepromReads : Obligations.ReadEepromReads := by
  intro s addr length hq hr
  have hp : paramError s.params (.readEEPROM addr length) = none := (eepromError_none _ _).2 hr
  obtain ⟨t, ht, hdone, hfe⟩ := performOperation_query (i := .readEEPROM addr length)
    (b := s.fe.store.eepromBytes addr length) (r := .bytes) hq hp (fun _ => rfl)
    (decode_encode (wf_of_paramError_none hp)) rfl (FeStore.eepromBytes_length _ _ _).symm
  have hs : t.fe.store = s.fe.store := by rw [hfe]; rfl
  exact ⟨t, _, ht, hdone, FeStore.eepromBytes_length _ _ _, fun _ hk => FeStore.eepromBytes_getElem _ _ _ hk,
    hdone.around.kept_of_store hs⟩

/-- Settles O24: the operands of each command fail its check, so that nothing is sent. -/
theorem eepromRangeChecked : Obligations.EepromRangeChecked := fun _ addr length data =>
  ⟨fun h => performOperation_query_rejected (i := .readEEPROM addr length) (eepromError_badEepromRange h),
    fun h => performOperation_send_rejected (i := .writeEEPROM addr data) (eepromError_badEepromRange h)⟩

end Sys2Proof.Machine
end

section
/-! SUPPORT. The RF data commands with a front-end that answers (R170 to R176): SendData of a front-end that is not FE_REF, and ReadData
of any, touch the two buffers alone, a read delivers what was received, and an operand out of range is never sent. -/

namespace Sys2Proof.Machine

/-! ## What the commands leave -/

section

variable (f : FeStore)

/-- SendData: the payload is taken, or the state was not WaitTransmit and the buffer is as before (R170, U3). -/
theorem FeStore.reactSendData_unconstrained (bytes : List Byte) (validBits : Nat) : ∃ txbuf txValidBits draws,
    f.reactSendData .unconstrained bytes validBits =
      { f with txbuf := txbuf, txValidBits := txValidBits, draws := draws } ∧
    (txbuf = bytes ∧ txValidBits = BitVec.ofNat 3 validBits ∨
      f.ts ≠ 1 ∧ txbuf = f.txbuf ∧ txValidBits = f.txValidBits) := by
  unfold FeStore.reactSendData
  dsimp only
  split
  · exact ⟨_, _, _, rfl, .inl ⟨rfl, rfl⟩⟩
  · next hts =>
    split
    · exact ⟨_, _, _, rfl, .inl ⟨rfl, rfl⟩⟩
    · exact ⟨_, _, _, rfl, .inr ⟨hts, rfl, rfl⟩⟩

/-- ReadData: only the receive buffer can change, and FE_REF keeps it (R64, U7). -/
theorem FeStore.reactReadData_eq (kind : FeKind) (n : Nat) : ∃ rxbuf draws,
    f.reactReadData kind n = { f with rxbuf := rxbuf, draws := draws } ∧ (kind = .reference → rxbuf = f.rxbuf) := by
  cases kind with
  | reference => exact ⟨_, _, rfl, fun _ => rfl⟩
  | unconstrained => exact ⟨_, _, rfl, nofun⟩

end

/-- An operation that leaves the store with other buffers leaves everything beside the buffers as before. -/
theorem BlockAround.kept_of_buffers {s t : State} {txbuf rxbuf : List Byte} {txValidBits : BitVec 3} {draws : Nat}
    (h : BlockAround s t) (l : List Byte)
    (hs : t.fe.store =
      { s.fe.store with txbuf := txbuf, txValidBits := txValidBits, rxbuf := rxbuf, draws := draws }) :
    RegistersKeptBut l s t ∧ RadioKept s t ∧ EepromKept s t := by
  refine ⟨⟨fun a _ => h.reg_eq hs a, fun _ => by rw [hs]⟩, ?_, fun a => by rw [State.eepromAt, hs]; rfl⟩
  constructor <;> rw [hs]

/-! ## The bytes delivered -/

section

variable {f : FeStore} {n : Nat}

/-- A read delivers as many bytes as it asks for; FE_REF has to hold them (R64, R174). -/
theorem FeStore.answerReadData_length {kind : FeKind} (h : kind = .reference → n ≤ f.rxbuf.length) :
    (f.answerReadData kind n).length = n := by
  cases kind with
  | reference => exact List.length_take_of_le (h rfl)
  | unconstrained => simp [FeStore.answerReadData]

/-- A front-end that is not FE_REF delivers below RX_STATUS[8:0] the bytes received (R45, R174). -/
theorem FeStore.answerReadData_received {kind : FeKind} (hkind : kind = .unconstrained) {k : Nat}
    (hk : k < (f.answerReadData kind n).length) (hbuf : k < f.rxbuf.length)
    (hlen : k < (lengthField f.rxStatus).toNat) : (f.answerReadData kind n)[k] = f.rxbuf[k] := by
  subst hkind
  have hbyte : (f.answerReadData .unconstrained n)[k] = f.rxByte k := by simp [FeStore.answerReadData]
  rw [hbyte, FeStore.rxByte, if_pos hlen, List.getD_eq_getElem _ _ hbuf]

end

/-! ## The operand checks -/

/-- The length is tested first, whatever the valid bits are (R171, R277). -/
theorem sendError_badSendLength {n : Nat} (validBits : Nat) (h : n = 0 ∨ 260 < n) :
    sendError n validBits = some .badSendLength := by
  have hn : ¬ sendLengthOk n = true := fun hok => by
    have := (sendLengthOk_iff n).1 hok
    omega
  exact if_pos (by simp [hn])

theorem sendError_badValidBits {n validBits : Nat} (h1 : 1 ≤ n) (h2 : n ≤ 260) (hv : 7 < validBits) :
    sendError n validBits = some .badValidBits := by
  have hn : sendLengthOk n = true := (sendLengthOk_iff n).2 ⟨h1, h2⟩
  have hb : ¬ validBitsOk validBits = true := fun hok => Nat.not_le.2 hv ((validBitsOk_iff _).1 hok)
  simp [sendError, hn, hb]

theorem readError_badReadLength {n : Nat} (h : n = 0 ∨ 508 < n) : readError n = some .badReadLength := by
  refine if_neg fun hok => ?_
  have := (readLengthOk_iff n).1 hok
  omega

/-! ## The statements -/

/-- Settles O25: the reaction to the frame can touch the transmit buffer and its valid-bit count alone. -/
theorem sendDataFills : Obligations.SendDataFills := by
  intro s bytes validBits hq hk h1 h2 hv
  have hp := paramError_sendData (p := s.params) h1 h2 hv
  obtain ⟨t, ht, hdone, hfe⟩ := performOperation_send (i := .sendData bytes validBits) hq hp (fun _ => rfl)
    (decode_encode (wf_of_paramError_none hp)) rfl
  have hstore : t.fe.store = s.fe.store.reactSendData s.fe.kind bytes validBits := congrArg FrontEnd.store hfe
  obtain ⟨txbuf, txValidBits, draws, he, htx⟩ := s.fe.store.reactSendData_unconstrained bytes validBits
  rw [hk, he] at hstore
  refine ⟨t, ht, hdone, ?_, ?_, hdone.around.kept_of_buffers _ hstore⟩
  · rw [hstore]
    exact htx
  · rw [hstore]

/-- Settles O28: the bytes delivered are those the front-end prepared, and the read can touch the receive buffer alone. -/
theorem readDataReads : Obligations.ReadDataReads := by
  intro s n hq h1 h2 href
  have hp : paramError s.params (.readData n) = none := (readError_none n).2 ((readLengthOk_iff n).2 ⟨h1, h2⟩)
  have hlen : (s.fe.store.answerReadData s.fe.kind n).length = n := FeStore.answerReadData_length href
  obtain ⟨t, ht, hdone, hfe⟩ := performOperation_query (i := .readData n) (r := .bytes) hq hp
    (fun hk => if_neg (Nat.not_lt.2 (href hk))) (decode_encode (wf_of_paramError_none hp)) rfl hlen.symm
  obtain ⟨rxbuf, draws, he, hrx⟩ := s.fe.store.reactReadData_eq s.fe.kind n
  have hstore : t.fe.store = { s.fe.store with rxbuf := rxbuf, draws := draws } := by
    rw [hfe, ← he]
    rfl
  obtain ⟨hregs, hradio, heeprom⟩ := hdone.around.kept_of_buffers [0x03] hstore
  refine ⟨t, _, ht, hdone, hlen, fun hk => ⟨?_, ?_⟩,
    fun hk k h h' hlow => FeStore.answerReadData_received hk h h' hlow,
    hregs, ?_, ?_, hradio, heeprom⟩
  · rw [hk]
    rfl
  · rw [hstore]
    exact hrx hk
  · rw [hstore]
  · rw [hstore]

/-- Settles O27: the operands fail the checks, the length the first of them, so that nothing is sent. -/
theorem sendDataChecked : Obligations.SendDataChecked := fun _ bytes validBits =>
  ⟨fun h => performOperation_send_rejected (i := .sendData bytes validBits) (sendError_badSendLength validBits h),
    fun h1 h2 hv => performOperation_send_rejected (i := .sendData bytes validBits) (sendError_badValidBits h1 h2 hv)⟩

/-- Settles O30: the length fails the check, so that nothing is sent. -/
theorem readDataChecked : Obligations.ReadDataChecked := fun _ n h =>
  performOperation_query_rejected (i := .readData n) (readError_badReadLength h)

end Sys2Proof.Machine
end

section
/-! SUPPORT. The RF control and system commands with a front-end that answers (R180 to R187): LoadRFConfig in one frame; SetRFOn and
SetRFOff as their frame, the polls that do not show the flag, the one that does, and the clear; SwitchMode, which ends before any
exchange. -/

namespace Sys2Proof.Machine

variable {s t : State}

/-! ## SwitchMode -/

/-- A request that ends Unsupported leaves all but its completion record (R263). -/
theorem endUnsupported_rejected (s : State) : Rejected s (endUnsupported s) .unsupported :=
  { completion := rfl, trace := rfl, fe := rfl, around := ⟨rfl, rfl, rfl, rfl, rfl, rfl, rfl⟩, latches := ⟨rfl, rfl⟩
    requests := rfl }

/-- The registers of an idle block have the values the end of an operation gives them. -/
theorem endUnsupported_xcvr (h : s.xcvr.isIdle = true) : (endUnsupported s).xcvr = s.xcvr := by
  rw [endUnsupported, State.complete_xcvr]
  generalize s.xcvr = x at h ⊢
  obtain ⟨hsel, hphase, hdc, hpe, hbusy⟩ := (Xcvr.isIdle_iff _).1 h
  obtain ⟨rst, busy, bus, dc, snap, pe⟩ := x
  cases bus; cases dc; cases pe
  simp_all

/-- Byte 0 alone makes a record a request for SwitchMode (log entry 9). -/
theorem decode_0B (bytes : List Byte) (n : Nat) : decode ⟨0x0B :: bytes, n⟩ = .ok .switchMode := rfl

/-- Settles O35: each form of the request runs `execSwitchMode`, which accepts nothing. -/
theorem switchModeUnsupported : Obligations.SwitchModeUnsupported := by
  refine ⟨fun s => ⟨_, rfl, endUnsupported_rejected s, endUnsupported_xcvr⟩, fun s bytes n rest hb hr => ?_⟩
  have hstep : step s = .next (endUnsupported { s with requests := rest }) := by
    rw [step_of_idle hb hr, runRequest_encoded (decode_0B bytes n)]
    rfl
  exact ⟨_, hstep, endUnsupported_rejected _, endUnsupported_xcvr (s := { s with requests := rest })⟩

/-! ## LoadRFConfig -/

/-- Settles O31: the reaction to the frame leaves the profiles, and all that is no register of configuration. -/
theorem loadRFConfigLoads : Obligations.LoadRFConfigLoads := by
  intro s tx rx hq
  obtain ⟨t, ht, hdone, hfe⟩ := performOperation_send (i := .loadRFConfig tx rx) hq rfl (fun _ => rfl) (decode_encode rfl) rfl
  have hs : t.fe.store = s.fe.store.reactLoadRFConfig s.fe.kind tx rx := congrArg FrontEnd.store hfe
  obtain ⟨htx, hrx, henable, hstatus, hrxStatus, hts, heeprom, hepoch, htxbuf, hbits, hrxbuf, hrf, htag⟩ :=
    s.fe.store.reactLoadRFConfig_rest s.fe.kind tx rx
  refine ⟨t, ht, hdone, by rw [hs]; exact htx, by rw [hs]; exact hrx, by rw [hs, hrf], by rw [hs, htag],
    by rw [hs, hts], fun a ha => ?_, fun hk => ⟨fun a _ => ?_, fun _ => by rw [hs, hts]⟩, ?_, fun a => ?_⟩
  · rw [hdone.around.reg_eq hs]
    simp only [List.mem_cons, List.not_mem_nil, or_false] at ha
    rcases ha with rfl | rfl | rfl
    · exact henable
    · exact hstatus
    · exact hrxStatus
  · exact hdone.around.reg_eq (hs.trans (FeStore.reactLoadRFConfig_stored _ hk)) a
  · exact ⟨by rw [hs, htxbuf], by rw [hs, hbits], by rw [hs, hrxbuf]⟩
  · simp only [State.eepromAt, FeStore.eepromByte, hs, heeprom, hepoch]

end Sys2Proof.Machine
end

section
/-! SUPPORT. SetRFOn and SetRFOff with a front-end whose own actions set flags and do nothing else (R181 to R185): one account of an
operation for FE_REF, for a front-end with no action of its own and for one that acts, carried through the frame, the polls and the
clear. -/

namespace Sys2Proof.Machine

/-! ## The mask of a flag, and the reads and registers the operations use -/

theorem getLsbD_bitMask (bit : Nat) {j : Nat} (hj : j < 32) : (bitMask bit).getLsbD j = decide (bit = j) := by
  rw [bitMask, BitVec.getLsbD_ofNat, Nat.testBit_two_pow, decide_eq_true hj, Bool.true_and]

theorem getLsbD_or_bitMask (v : Word) {bit : Nat} (h : bit < 32) : (v ||| bitMask bit).getLsbD bit = true := by
  rw [BitVec.getLsbD_or, getLsbD_bitMask bit h, decide_eq_true rfl, Bool.or_true]

/-- The mask of a flag that is set adds nothing. -/
theorem or_bitMask_of_set {v : Word} {bit : Nat} (h : v.getLsbD bit = true) : v ||| bitMask bit = v := by
  refine BitVec.eq_of_getLsbD_eq fun j hj => ?_
  rw [BitVec.getLsbD_or, getLsbD_bitMask bit hj]
  by_cases hjb : bit = j
  · rw [← hjb, h, Bool.true_or]
  · rw [decide_eq_false hjb, Bool.or_false]

/-- Every register address an operation uses by itself passes its check. -/
theorem registerDefined_of_usesDefined {p : Params} (h : p.usesDefined = true) {a : Byte}
    (ha : a ∈ [0x00, 0x02, 0x03, 0x12, 0x13, 0x19, 0x1D]) : registerDefined p a = true :=
  List.all_eq_true.1 h a ha

/-- ReadRegister as a part of an operation, when the front-end adds no level and no byte: its own action comes first. -/
theorem readRegister_calm {s : State} (addr : Byte) (h : s.Calm) (hd : registerDefined s.params addr = true)
    (hf : s.fe.kind = .reference → addr ≠ 0x03) :
    readRegister addr s = .ok ((s.onFe FrontEnd.ownAction).reg addr)
      (commandQueried (.readRegister addr) (le32 ((s.onFe FrontEnd.ownAction).reg addr)) (s.onFe FrontEnd.ownAction)) := by
  have hb : s.fe.ownAction.store.answer s.params s.fe.kind (.readRegister addr) =
      le32 ((s.onFe FrontEnd.ownAction).reg addr) := by
    simp [State.reg, FeStore.answer, FeStore.answerReadRegister]
  rw [readRegister, queryCommand_calm (i := .readRegister addr) h ((registerError_none _ _).2 hd)
    (fun hk => if_neg (hf hk)) rfl hb rfl, Run.map_ok, unle32_le32]

/-! ## Own actions that set flags -/

/-- The action a front-end of this kind takes with the next frame, of the own actions in its input: FE_REF takes none, and one that
has none left does nothing (R60, log entry 7). -/
def FeKind.nextAct (kind : FeKind) (acts : List FeAct) : FeAct :=
  match kind with
  | .reference => FeAct.nothing
  | .unconstrained => acts.headD FeAct.nothing

/-- The own actions that are left after that frame. -/
def FeKind.laterActs (kind : FeKind) (acts : List FeAct) : List FeAct :=
  match kind with
  | .reference => acts
  | .unconstrained => acts.tail

/-- The next own action of any front-end, as a frame is processed. -/
theorem FrontEnd.ownAction_eq (fe : FrontEnd) : fe.ownAction =
    { fe.applyAct (fe.kind.nextAct fe.inputs.acts) with
      inputs := { fe.inputs with acts := fe.kind.laterActs fe.inputs.acts } } := by
  cases hk : fe.kind with
  | reference =>
    rw [FrontEnd.ownAction_plain ((FrontEnd.plain_iff _).2 (.inl hk)), FeKind.nextAct, FrontEnd.applyAct_nothing]
    rfl
  | unconstrained =>
    cases ha : fe.inputs.acts with
    | nil =>
      have hown : fe.ownAction = fe := by simp only [FrontEnd.ownAction, hk, ha]
      rw [hown, FeKind.nextAct, List.headD_nil, FrontEnd.applyAct_nothing, FeKind.laterActs, List.tail_nil, ← ha]
    | cons a rest => exact FrontEnd.ownAction_cons hk ha

/-- A quiet front-end that is not FE_REF has no own action left. -/
theorem State.Quiet.noActs {s : State} (h : s.Quiet) (hk : s.fe.kind = .unconstrained) : s.fe.inputs.acts = [] := by
  obtain ⟨-, hplain⟩ := (FrontEnd.cooperative_iff _).1 h.fe
  obtain ⟨-, -, ha⟩ := ((FrontEnd.plain_iff _).1 hplain).resolve_left (by rw [hk]; nofun)
  exact ha

/-- A quiet front-end does nothing of its own. -/
theorem State.Quiet.idleActs {s : State} (h : s.Quiet) : s.fe.kind.nextAct s.fe.inputs.acts = FeAct.nothing ∧
    s.fe.kind.laterActs s.fe.inputs.acts = s.fe.inputs.acts := by
  cases hk : s.fe.kind with
  | reference => exact ⟨rfl, rfl⟩
  | unconstrained =>
    rw [h.noActs hk]
    exact ⟨rfl, rfl⟩

/-- An action that sets no flag leaves the field as it is. -/
theorem FeAct.fieldAfter_flags_zero (on : Bool) : (FeAct.flags 0).fieldAfter on = on := by
  simp [FeAct.fieldAfter_flags]

/-! ## One account of the operation -/

/-- The store with these flags in IRQ_STATUS and the field on or off: all that SetRFOn and SetRFOff change of it. -/
def FeStore.withField (v : Word) (on : Bool) (draws : Nat) (f : FeStore) : FeStore :=
  { f with irqStatus := v, rfOn := on, draws := draws }

/-- From `s` to `t` inside SetRFOn or SetRFOff, with a front-end of any kind whose own actions to come are `acts`: so many frames with
these bytes, IRQ_STATUS is now `v`, the field is on or off, and everything else is as it was. It is `Chain` and `CalmChain` in one,
for the two operations whose statements speak of FE_REF, of a front-end that acts and of the block's latches alike. -/
structure FieldRun (s t : State) (frames : Nat) (out inp : List Byte) (acts : List FeAct) (v : Word) (on : Bool) :
    Prop where
  calm : t.Calm
  store : ∃ draws, t.fe.store = s.fe.store.withField v on draws
  params : t.params = s.params
  kind : t.fe.kind = s.fe.kind
  irq : t.fe.irq = s.fe.irq
  inputs : t.fe.inputs = { s.fe.inputs with acts := acts }
  resetIn : t.resetIn = s.resetIn
  requests : t.requests = s.requests
  rst : t.xcvr.rst = s.xcvr.rst
  irqSnap : t.xcvr.irqSnap = s.xcvr.irqSnap
  pe : t.xcvr.pe = s.xcvr.pe
  refused : t.refused = none
  traffic : Traffic s t frames out inp

/-- The operation has just been accepted. -/
theorem FieldRun.start {s : State} (h : s.Calm) : FieldRun s s.accept 0 [] [] s.fe.inputs.acts (s.reg 0x02) s.fe.store.rfOn :=
  { calm := ⟨h.busy, h.lines, h.noReset⟩, store := ⟨_, rfl⟩, params := rfl, kind := rfl, irq := rfl, inputs := rfl
    resetIn := rfl, requests := rfl, rst := rfl, irqSnap := rfl, pe := rfl, refused := rfl, traffic := .refl s }

section

variable {s t : State} {n bit : Nat} {o r : List Byte} {acts : List FeAct} {v w : Word} {on on' : Bool}

/-- A change of the command interface's registers is no event. -/
theorem FieldRun.onDc (h : FieldRun s t n o r acts v on) (g : DcRegs → DcRegs) : FieldRun s (t.onDc g) n o r acts v on :=
  { h with calm := ⟨h.calm.busy, h.calm.lines, h.calm.noReset⟩, traffic := h.traffic }

/-- The front-end has taken its next own action, which sets flags. -/
theorem FieldRun.acted (h : FieldRun s t n o r acts v on) (ha : s.fe.kind.nextAct acts = FeAct.flags w) :
    FieldRun s (t.onFe FrontEnd.ownAction) n o r (s.fe.kind.laterActs acts) (v ||| w) ((FeAct.flags w).fieldAfter on) := by
  obtain ⟨draws, hs⟩ := h.store
  have hacts : t.fe.inputs.acts = acts := by rw [h.inputs]
  have hfe : (t.onFe FrontEnd.ownAction).fe =
      { t.fe.applyAct (FeAct.flags w) with inputs := { s.fe.inputs with acts := s.fe.kind.laterActs acts } } := by
    rw [State.onFe_fe, FrontEnd.ownAction_eq, h.kind, hacts, ha, h.inputs]
  obtain ⟨hkind, hbusy, -, -, -⟩ := t.fe.ownAction_rest
  exact
    { h with
      calm := ⟨hbusy.trans h.calm.busy, FrontEnd.ownAction_still h.calm.lines, h.calm.noReset⟩
      store := ⟨draws, by rw [hfe, FrontEnd.applyAct, hs]; rfl⟩
      kind := hkind.trans h.kind
      irq := by rw [hfe]; exact h.irq
      inputs := by rw [hfe]
      traffic := h.traffic }

/-- The front-end has had its turn and done nothing. -/
theorem FieldRun.idled (h : FieldRun s t n o r acts v on) (ha : s.fe.kind.nextAct acts = FeAct.nothing) :
    FieldRun s (t.onFe FrontEnd.ownAction) n o r (s.fe.kind.laterActs acts) v on := by
  have hact := h.acted (w := 0) ha
  rwa [FeAct.fieldAfter_flags_zero, show v ||| 0 = v from BitVec.or_zero] at hact

/-- A command without a result, whose reaction changes no more than IRQ_STATUS and the field. -/
theorem FieldRun.sent (h : FieldRun s t n o r acts v on) {i : Instr}
    (hi : ∃ draws, t.fe.store.react s.params s.fe.kind i = s.fe.store.withField w on' draws) :
    FieldRun s (commandSent i t) (n + 1) (o ++ (encode i).frame) r acts w on' :=
  { h with
    calm := ⟨rfl, h.calm.lines, h.calm.noReset⟩
    store := by rwa [← h.params, ← h.kind] at hi
    traffic := by
      simpa using h.traffic.append (commandSent_trace i t) (framesOpened_exchange _) (bytesSent_exchange _)
        (bytesCaptured_exchange _) }

/-- A read of IRQ_STATUS changes nothing. -/
theorem FieldRun.queried (h : FieldRun s t n o r acts v on) (b : List Byte) :
    FieldRun s (commandQueried (.readRegister 0x02) b t) (n + 2) (o ++ [0x04, 0x02]) (r ++ b) acts v on :=
  { h with
    calm := ⟨rfl, h.calm.lines, h.calm.noReset⟩
    store := h.store
    traffic :=
      h.traffic.append (commandQueried_trace _ b t) (framesOpened_exchangeRead _ _) (bytesSent_exchangeRead _ _)
        (bytesCaptured_exchangeRead _ _) }

/-- The field of a front-end that did not show its flag is unknown (R181, R182). -/
theorem FieldRun.fieldLost (h : FieldRun s t n o r acts v on) (hk : s.fe.kind = .unconstrained) :
    ∃ on', FieldRun s (t.onFe FrontEnd.fieldUnknown) n o r acts v on' := by
  obtain ⟨draws, hs⟩ := h.store
  have hfe : t.fe.fieldUnknown =
      { t.fe with store := s.fe.store.withField v (Config.freeBool draws) (draws + 1) } := by
    simp only [FrontEnd.fieldUnknown, h.kind.trans hk, hs]
    rfl
  refine ⟨Config.freeBool draws, ?_⟩
  rw [State.onFe, hfe]
  exact { h with calm := ⟨h.calm.busy, h.calm.lines, h.calm.noReset⟩, store := ⟨_, rfl⟩, traffic := h.traffic }

theorem FieldRun.irqStatus (h : FieldRun s t n o r acts v on) : t.reg 0x02 = v := by
  obtain ⟨draws, hs⟩ := h.store
  rw [State.reg, hs]
  rfl

theorem FieldRun.reg (h : FieldRun s t n o r acts v on) {a : Byte} (ha : a ≠ 0x02) : t.reg a = s.reg a := by
  obtain ⟨draws, hs⟩ := h.store
  rw [State.reg, hs, h.params, h.kind]
  exact FeStore.regRead_irqStatus _ _ _ _ ha

/-- Everything around the operation, at its end. -/
theorem FieldRun.around (h : FieldRun s t n o r s.fe.inputs.acts v on) (c : Completion) : BlockAround s (t.complete c) :=
  { idle := rfl, rst := h.rst, params := h.params, resetIn := h.resetIn, feKind := h.kind, feIrq := h.irq, feInputs := h.inputs }

/-- With IRQ_STATUS as it was, every register is. -/
theorem FieldRun.registersKept (h : FieldRun s t n o r acts (s.reg 0x02) on) (c : Completion) :
    RegistersKeptBut [] s (t.complete c) := by
  obtain ⟨draws, hs⟩ := h.store
  refine ⟨fun a _ => ?_, fun _ => by rw [State.complete_fe, hs]; rfl⟩
  by_cases ha : a = 0x02
  · rw [ha]
    exact h.irqStatus
  · exact h.reg ha

/-- What is claimed of the front-end beside the field. -/
theorem FieldRun.left (h : FieldRun s t n o r acts v on) (c : Completion) : FieldCommandLeft s (t.complete c) v := by
  obtain ⟨draws, hs⟩ := h.store
  exact
    { irqStatus := h.irqStatus
      registers := ⟨fun a ha => h.reg (fun e => ha (List.mem_singleton.2 e)), fun _ => by rw [State.complete_fe, hs]; rfl⟩
      buffers := by constructor <;> (rw [State.complete_fe, hs]; rfl)
      eeprom := fun a => by rw [State.eepromAt, State.complete_fe, hs]; rfl
      cfgTx := by rw [State.complete_fe, hs]; rfl
      cfgRx := by rw [State.complete_fe, hs]; rfl
      tag := by rw [State.complete_fe, hs]; rfl }

/-! ## The polls -/

/-- A read of IRQ_STATUS, of which it is known what the front-end holds once it has taken its next own action. -/
theorem FieldRun.reads (hact : FieldRun s (t.onFe FrontEnd.ownAction) n o r acts v on) (hc : t.Calm)
    (hd : s.params.usesDefined = true) :
    ∃ u, readRegister 0x02 t = .ok v u ∧ FieldRun s u (n + 2) (o ++ [0x04, 0x02]) (r ++ le32 v) acts v on := by
  have hdef : registerDefined t.params 0x02 = true := hact.params ▸ registerDefined_of_usesDefined hd (by decide)
  refine ⟨_, ?_, hact.queried _⟩
  rw [readRegister_calm 0x02 hc hdef fun _ => by decide, hact.irqStatus]

/-- A poll that shows the flag ends the wait (R278). -/
theorem FieldRun.shown (hact : FieldRun s (t.onFe FrontEnd.ownAction) n o r acts v on) (hc : t.Calm)
    (hd : s.params.usesDefined = true) (hbit : v.getLsbD bit = true) (left : Nat) :
    ∃ u, pollFlag bit (left + 1) t = .ok () u ∧
      FieldRun s u (n + 2) (o ++ [0x04, 0x02]) (r ++ le32 v) acts v on := by
  obtain ⟨u, hu, hrun⟩ := hact.reads hc hd
  exact ⟨u, by rw [pollFlag, hu, Run.ok_andThen, if_pos hbit], hrun⟩

/-- So many polls that do not show the flag, with a front-end that does nothing meanwhile: each is a full read (R184). -/
theorem FieldRun.missed (hk : s.fe.kind = .unconstrained) (hd : s.params.usesDefined = true)
    (hbit : v.getLsbD bit = false) (left j : Nat) : ∀ {t : State} {n : Nat} {o r : List Byte} {acts : List FeAct},
    FieldRun s t n o r acts v on → (∀ a ∈ acts.take j, a = FeAct.nothing) →
    ∃ u, pollFlag bit (left + j) t = pollFlag bit left u ∧
      FieldRun s u (n + 2 * j) (o ++ (List.replicate j [0x04, 0x02]).flatten) (r ++ (List.replicate j (le32 v)).flatten)
        (acts.drop j) v on := by
  induction j with
  | zero => exact fun h _ => ⟨_, rfl, by simpa using h⟩
  | succ j ih =>
    intro t n o r acts h ha
    have hnext : s.fe.kind.nextAct acts = FeAct.nothing := by
      rw [hk]
      cases acts with
      | nil => rfl
      | cons a acts => exact ha a List.mem_cons_self
    have hlater : s.fe.kind.laterActs acts = acts.tail := by rw [hk]; rfl
    have htail : ∀ a ∈ acts.tail.take j, a = FeAct.nothing := fun a hm =>
      ha a (List.mem_of_mem_tail (by rw [List.tail_take_eq_take_tail]; exact hm))
    obtain ⟨u, hu, hrun⟩ := (h.idled hnext).reads h.calm hd
    rw [hlater] at hrun
    obtain ⟨u', hu', hrun'⟩ := ih (hrun.onDc fun d => { d with polls := d.polls + 1 }) htail
    refine ⟨u', ?_, ?_⟩
    · rw [← Nat.add_assoc, pollFlag, hu, Run.ok_andThen, if_neg (by simp [hbit]), hu']
    · rw [List.drop_tail] at hrun'
      simpa [List.replicate_succ, Nat.mul_add, Nat.add_assoc, Nat.add_comm 2] using hrun'

/-! ## The frame and the clear -/

/-- The two operations: the command, the flag that says the field has switched, the flag that says the contrary, and what the field
then is (R181, R182, R183). -/
inductive Switches : Instr → Nat → Nat → Bool → Prop where
  | on : Switches .rfOn 9 8 true
  | off : Switches .rfOff 8 9 false

variable {i : Instr} {other : Nat} {up : Bool}

/-- FE_REF sets the flag and switches the field as it takes the frame; another front-end does not set it with the frame (R65, R181,
R182). -/
theorem Switches.react (hi : Switches i bit other up) (p : Params) (kind : FeKind) (f : FeStore) (v : Word)
    (on : Bool) (draws : Nat) : ∃ on' draws', (f.withField v on draws).react p kind i =
        f.withField (if kind = .reference then v ||| bitMask bit else v) on' draws' ∧ (kind = .reference → on' = up) := by
  cases hi with
  | on | off =>
    cases kind with
    | reference => exact ⟨_, _, rfl, fun _ => rfl⟩
    | unconstrained => exact ⟨_, _, rfl, nofun⟩

/-- The frame, with a front-end that does nothing meanwhile. -/
theorem Switches.sends (hi : Switches i bit other up) (hc : s.Calm) (ha : s.fe.kind.nextAct s.fe.inputs.acts = FeAct.nothing) :
    ∃ u on, sendCommand i s.accept = .ok () u ∧
      FieldRun s u 1 (encode i).frame [] (s.fe.kind.laterActs s.fe.inputs.acts)
        (if s.fe.kind = .reference then s.reg 0x02 ||| bitMask bit else s.reg 0x02) on ∧
      (s.fe.kind = .reference → on = up) := by
  have hstart := FieldRun.start hc
  have hact := hstart.idled ha
  obtain ⟨draws, hs⟩ := hact.store
  obtain ⟨on, draws', hr, hup⟩ := hi.react s.params s.fe.kind s.fe.store (s.reg 0x02) s.fe.store.rfOn draws
  have hsend : sendCommand i s.accept = .ok () (commandSent i (s.accept.onFe FrontEnd.ownAction)) := by
    cases hi with
    | on | off => exact sendCommand_calm hstart.calm rfl (fun _ => rfl) rfl rfl
  exact ⟨_, on, hsend, hact.sent ⟨draws', by rw [hs, hr]⟩, hup⟩

/-- The clear of one flag, with a front-end that does nothing meanwhile (R34, R181). -/
theorem FieldRun.clears (h : FieldRun s t n o r acts v on) (hd : s.params.usesDefined = true)
    (ha : s.fe.kind.nextAct acts = FeAct.nothing) (m : Word) :
    ∃ u, sendCommand (.writeRegister 0x03 m) (dcEnter .clear t) = .ok () u ∧
      FieldRun s u (n + 1) (o ++ 0x00 :: 0x03 :: le32 m) r (s.fe.kind.laterActs acts) (v &&& ~~~m) on := by
  have hrun := h.onDc fun d => { d with phase := .clear }
  have hact := hrun.idled ha
  obtain ⟨draws, hs⟩ := hact.store
  have hp : paramError (dcEnter .clear t).params (.writeRegister 0x03 m) = none :=
    (registerError_none _ _).2 (h.params ▸ registerDefined_of_usesDefined hd (by decide))
  refine ⟨_, sendCommand_calm hrun.calm hp (fun _ => rfl) (decode_encode rfl) rfl, hact.sent ⟨draws, ?_⟩⟩
  rw [hs]
  rfl

/-! ## The operations from the port -/

/-- The state in which the polls begin. -/
def pollingFrom (t : State) : State := (dcEnter .poll t).onDc fun d => { d with polls := 0 }

theorem FieldRun.polling (h : FieldRun s t n o r acts v on) : FieldRun s (pollingFrom t) n o r acts v on :=
  (h.onDc _).onDc _

theorem Switches.exec_eq (hi : Switches i bit other up) (s : State) : exec i s = performOperation (switchField i bit) s := by
  cases hi with
  | on | off => rfl

/-- The operation whose frame has been sent and whose polls have shown the flag, these flags with it: the flag is cleared, and the
operation completes. -/
theorem Switches.exec_switched (hi : Switches i bit other up) (hd : s.params.usesDefined = true) {t u : State} {k : Nat}
    (hsend : sendCommand i s.accept = .ok () t) (ht : t.params = s.params)
    (hpoll : pollFlag bit s.params.nIrqPolls (pollingFrom t) = .ok () u)
    (hrun : FieldRun s u (1 + 2 * k) ((encode i).frame ++ (List.replicate k [0x04, 0x02]).flatten)
      ((List.replicate (k - 1) (le32 (s.reg 0x02))).flatten ++ le32 (s.reg 0x02 ||| w)) acts (s.reg 0x02 ||| w) on)
    (ha : s.fe.kind.nextAct acts = FeAct.nothing) :
    ∃ t, exec i s = .next t ∧ FieldSwitched s t (encode i).frame (bitMask bit) w k ∧ t.fe.store.rfOn = on ∧
      (s.fe.kind.laterActs acts = s.fe.inputs.acts → BlockAround s t) := by
  obtain ⟨x, hclear, hx⟩ := hrun.clears hd ha (bitMask bit)
  have hbody : switchField i bit s.accept = .ok Completion.done x := by
    rw [switchField, hsend, Run.ok_andThen, ht, ← pollingFrom, hpoll, Run.ok_andThen, hclear, Run.map_ok]
  refine ⟨_, (hi.exec_eq s).trans (performOperation_ok hbody hx.refused), ?_, ?_, fun hl => ?_⟩
  · exact
      { completion := rfl, traffic := hx.traffic, left := hx.left _, idle := rfl
        latches := ⟨hx.irqSnap, congrArg (fun pe : PeRegs => { pe with stage := .idle }) hx.pe⟩
        params := hx.params, requests := hx.requests }
  · obtain ⟨draws, hs⟩ := hx.store
    rw [State.complete_fe, hs]
    rfl
  · rw [hl] at hx
    exact hx.around _

/-- With FE_REF, and with a front-end that shows the flag already, the first poll ends the operation (R65, R185, D26). -/
theorem Switches.exec_quiet (hi : Switches i bit other up) (hq : s.Quiet) (hd : s.params.usesDefined = true)
    (hN : 1 ≤ s.params.nIrqPolls) (hk : s.fe.kind = .reference ∨ (s.reg 0x02).getLsbD bit = true) :
    ∃ t, exec i s = .next t ∧ FieldSwitched s t (encode i).frame (bitMask bit) (bitMask bit) 1 ∧ BlockAround s t ∧
      (s.fe.kind = .reference → t.fe.store.rfOn = up) := by
  obtain ⟨hnext, hlater⟩ := hq.idleActs
  obtain ⟨t, on, hsend, ht, hup⟩ := hi.sends hq.calm hnext
  have hflags : (if s.fe.kind = .reference then s.reg 0x02 ||| bitMask bit else s.reg 0x02) = s.reg 0x02 ||| bitMask bit := by
    split
    · rfl
    · next hn => exact (or_bitMask_of_set (hk.resolve_left hn)).symm
  have hbit : bit < 32 := by cases hi <;> decide
  rw [hlater, hflags] at ht
  obtain ⟨left, hleft⟩ := Nat.exists_eq_add_of_le' hN
  obtain ⟨u, hpoll, hu⟩ := (ht.polling.idled hnext).shown ht.polling.calm hd (getLsbD_or_bitMask _ hbit) left
  rw [hlater] at hu
  rw [← hleft] at hpoll
  obtain ⟨x, hx, hsw, hon, haround⟩ := hi.exec_switched (k := 1) hd hsend ht.params hpoll hu hnext
  exact ⟨x, hx, hsw, haround hlater, fun hr => hon.trans (hup hr)⟩

/-- The own action that sets the flag, and not the contrary one, says what the field is (log entry 31). -/
theorem Switches.fieldAfter (hi : Switches i bit other up) (hw : w.getLsbD bit = true) (hw' : w.getLsbD other = false) (on : Bool) :
    (FeAct.flags w).fieldAfter on = up := by
  cases hi with
  | on | off => simp only [FeAct.fieldAfter_flags, txRfOnBit, txRfOffBit, hw, hw']; rfl

/-- With a front-end whose own action sets the flag before poll `k`, that poll ends the operation (R181, R184). -/
theorem Switches.exec_acting (hi : Switches i bit other up) (hc : s.Calm) (hk : s.fe.kind = .unconstrained)
    (hd : s.params.usesDefined = true) {k : Nat}
    (hacts : s.fe.inputs.acts = List.replicate k FeAct.nothing ++ [FeAct.flags w]) (h1 : 1 ≤ k) (hN : k ≤ s.params.nIrqPolls)
    (hclear : (s.reg 0x02).getLsbD bit = false) (hw : w.getLsbD bit = true) (hw' : w.getLsbD other = false) :
    ∃ t, exec i s = .next t ∧ FieldSwitched s t (encode i).frame (bitMask bit) w k ∧ t.fe.store.rfOn = up := by
  obtain ⟨j, rfl⟩ := Nat.exists_eq_add_of_le' h1
  obtain ⟨left, hleft⟩ := Nat.exists_eq_add_of_le' hN
  have hfirst : s.fe.kind.nextAct s.fe.inputs.acts = FeAct.nothing := by rw [hk, hacts]; rfl
  have hrest : s.fe.kind.laterActs s.fe.inputs.acts = List.replicate j FeAct.nothing ++ [FeAct.flags w] := by rw [hk, hacts]; rfl
  obtain ⟨t, on, hsend, ht, -⟩ := hi.sends hc hfirst
  rw [hrest, if_neg (by rw [hk]; nofun)] at ht
  obtain ⟨u, hmissed, hu⟩ := ht.polling.missed hk hd hclear (left + 1) j fun a ha => by
    rw [List.take_left' List.length_replicate] at ha
    exact List.eq_of_mem_replicate ha
  rw [List.drop_left' List.length_replicate] at hu
  have hact : s.fe.kind.nextAct [FeAct.flags w] = FeAct.flags w := by rw [hk]; rfl
  obtain ⟨x, hshown, hx⟩ := (hu.acted hact).shown hu.calm hd (by rw [BitVec.getLsbD_or, hw, Bool.or_true]) left
  have hpoll : pollFlag bit s.params.nIrqPolls (pollingFrom t) = .ok () x := by
    rw [hleft, ← hshown, ← hmissed]
    congr 1
    omega
  have hlast : s.fe.kind.laterActs [FeAct.flags w] = [] := by rw [hk]; rfl
  rw [hlast, hi.fieldAfter hw hw'] at hx
  obtain ⟨y, hy, hsw, hon, -⟩ := hi.exec_switched (k := j + 1) hd hsend ht.params hpoll
    (by simpa [List.replicate_succ', Nat.mul_add, Nat.add_assoc] using hx) (by rw [hk]; rfl)
  exact ⟨y, hy, hsw, hon⟩

end

/-- Settles O32: FE_REF and a stale flag end the first poll, an own action the poll it comes before. -/
theorem setRFOnSwitches : Obligations.SetRFOnSwitches :=
  ⟨fun _ hq hd hN hk => Switches.on.exec_quiet hq hd hN hk,
    fun _ _ _ hc hk hd hacts h1 hN hclear hw hw' => Switches.on.exec_acting hc hk hd hacts h1 hN hclear hw hw'⟩

/-- Settles O33: as O32, with the other flag. -/
theorem setRFOffSwitches : Obligations.SetRFOffSwitches :=
  ⟨fun _ hq hd hN hk => Switches.off.exec_quiet hq hd hN hk,
    fun _ _ _ hc hk hd hacts h1 hN hclear hw hw' => Switches.off.exec_acting hc hk hd hacts h1 hN hclear hw hw'⟩

/-- Settles O34: every poll is a full read that misses, and the field is unknown after the last one. -/
theorem fieldFlagPollBounded : Obligations.FieldFlagPollBounded := by
  intro s i bit hq hk hd hi hclear
  obtain ⟨other, up, hi⟩ : ∃ other up, Switches i bit other up := by
    rcases hi with ⟨rfl, rfl⟩ | ⟨rfl, rfl⟩
    · exact ⟨_, _, .on⟩
    · exact ⟨_, _, .off⟩
  obtain ⟨hnext, hlater⟩ := hq.idleActs
  have hacts : s.fe.inputs.acts = [] := hq.noActs hk
  obtain ⟨t, on, hsend, ht, -⟩ := hi.sends hq.calm hnext
  rw [hlater, if_neg (by rw [hk]; nofun)] at ht
  obtain ⟨u, hmissed, hu⟩ := ht.polling.missed hk hd hclear 0 s.params.nIrqPolls (by simp [hacts])
  obtain ⟨on', hx⟩ := hu.fieldLost hk
  have hbody : switchField i bit s.accept = .stop (.outcome (.busTimeout .irqPoll)) (u.onFe FrontEnd.fieldUnknown) := by
    rw [switchField, hsend, Run.ok_andThen, ht.params, ← pollingFrom, ← Nat.zero_add s.params.nIrqPolls, hmissed]
    rfl
  have hnextState : exec i s = .next ((u.onFe FrontEnd.fieldUnknown).complete ⟨.busTimeout .irqPoll, .none⟩) := by
    rw [hi.exec_eq, performOperation, hbody, hk]
    rfl
  rw [hacts, List.drop_nil, ← hacts] at hx
  exact ⟨_, hnextState, rfl, hx.traffic, hx.registersKept _, hx.around _⟩

end Sys2Proof.Machine
end

section
/-! SUPPORT. The operations of the IRQ and status decoder (R190 to R196): GetIrqStatus and GetTransceiveState as chains of one
ReadRegister, ClearIrqStatus as the direct command it is, IsIrqAsserted as a sample of the line; and the state field, which the bits
of RF_STATUS beside it do not reach. -/

namespace Sys2Proof.Machine

/-! ## The state field of RF_STATUS -/

/-- A bit of the state field is the bit of the state (R39). -/
theorem getLsbD_stateField {tsShift i : Nat} (h : tsShift ≤ 29) (hi : i < 3) (n : BitVec 3) :
    (stateField tsShift n).getLsbD (tsShift + i) = n.getLsbD i := by
  have h32 : tsShift + i < 32 := by omega
  simp [stateField, h32]

/-- The state field of a value that FE returns for RF_STATUS is the transceive state, in both kinds of front-end (R39, R193). -/
theorem FeStore.tsField_rfStatus {p : Params} (h : p.tsShift ≤ 29) (kind : FeKind) (f : FeStore) :
    tsField p.tsShift (f.rfStatus p kind) = f.ts := by
  refine BitVec.eq_of_getLsbD_eq fun i hi => ?_
  rw [tsField, BitVec.getLsbD_extractLsb', decide_eq_true hi, Bool.true_and]
  cases kind with
  | reference => exact getLsbD_stateField h hi f.ts
  | unconstrained =>
    have hmask : (7 : BitVec 3).getLsbD i = true := by
      revert i
      decide
    have h32 : p.tsShift + i < 32 := by omega
    simp only [FeStore.rfStatus, BitVec.getLsbD_or, BitVec.getLsbD_and, BitVec.getLsbD_not, getLsbD_stateField h hi, hmask,
      h32, decide_true, Bool.not_true, Bool.and_false, Bool.false_or]

theorem Params.tsShift_le_of_wf {p : Params} (h : p.wf = true) : p.tsShift ≤ 29 := by
  simp only [Params.wf, Bool.and_eq_true, decide_eq_true_eq] at h
  exact h.2

/-! ## The IRQ line -/

/-- FE_REF asserts the line exactly when a flag is set and enabled (R61). -/
theorem irqLevel_reference {s : State} (hk : s.fe.kind = .reference) :
    s.fe.irqLevel = true ↔ s.reg 0x02 &&& s.reg 0x01 ≠ 0 := by
  rw [FrontEnd.irqLevel, hk]
  exact decide_eq_true_iff

theorem irqLevel_unconstrained {fe : FrontEnd} (hk : fe.kind = .unconstrained) : fe.irqLevel = fe.inputs.irq.headD fe.irq := by
  rw [FrontEnd.irqLevel, hk]

/-- A sample of the line touches neither what FE holds nor BUSY. -/
theorem FrontEnd.nextIrq_keeps (fe : FrontEnd) : fe.nextIrq.store = fe.store ∧ fe.nextIrq.busy = fe.busy := by
  unfold FrontEnd.nextIrq
  split <;> exact ⟨rfl, rfl⟩

/-! ## From the port -/

section

variable {s t : State} {rest : List Request}

/-- A claim about what is around an operation does not look at the records at the client port. -/
theorem BlockAround.ofTaken (h : BlockAround { s with requests := rest } t) : BlockAround s t := { h with }

theorem StoreKept.ofTaken (h : StoreKept { s with requests := rest } t) : StoreKept s t :=
  { buffers := { h.buffers with }, radio := { h.radio with }, eeprom := h.eeprom }

theorem State.Quiet.taken (h : s.Quiet) (rest : List Request) : ({ s with requests := rest } : State).Quiet := { h with }

end

section

variable {s : State}

/-- The latch of the decoder is no part of a chain (R28). -/
theorem Chain.latch {t : State} {n : Nat} {o r : List Byte} {f : FeStore} (h : Chain s t n o r f) (v : Word) :
    Chain s { t with xcvr := { t.xcvr with irqSnap := v } } n o r f :=
  { h with quiet := { h.quiet with }, traffic := h.traffic }

/-- GetIrqStatus when the front-end answers: one read of IRQ_STATUS, latched and delivered with its flags (R190, R191). -/
theorem opGetIrqStatus_quiet (hq : s.Quiet) (hd : registerDefined s.params 0x02 = true) :
    ∃ t, opGetIrqStatus s = .next t ∧
      t.completion = some ⟨.ok, .irqStatus (s.reg 0x02) (decodeIrq (s.reg 0x02))⟩ ∧
      t.xcvr.irqSnap = s.reg 0x02 ∧ t.xcvr.pe = { s.xcvr.pe with stage := .idle } ∧
      Traffic s t 2 [0x04, 0x02] (le32 (s.reg 0x02)) ∧ BlockAround s t ∧ t.fe.store = s.fe.store ∧
      t.requests = s.requests := by
  have hstart := Chain.start hq
  have hrun := getIrqStatus_quiet (s := s.accept) hstart.quiet hd
  have hend := (hstart.read (addr := 0x02) (by decide) (le32 (s.reg 0x02))).latch (s.reg 0x02)
  obtain ⟨haround, hstore, hrequests, hcompletion, -, htraffic⟩ :=
    hend.done ⟨.ok, .irqStatus (s.reg 0x02) (decodeIrq (s.reg 0x02))⟩
  exact ⟨_, performOperation_ok (by rw [hrun]; rfl) hend.refused, hcompletion, rfl, rfl, htraffic, haround, hstore, hrequests⟩

/-- GetTransceiveState when the front-end answers: one read of RF_STATUS, whose state field is delivered by name, and no latch
(R193, R194). -/
theorem opGetTransceiveState_quiet (hq : s.Quiet) (hd : registerDefined s.params 0x1D = true) (hw : s.params.wf = true) :
    ∃ t, opGetTransceiveState s = .next t ∧
      DirectDone s t (.transceiveState (transceiveState s.fe.store.ts)) 2 [0x04, 0x1D] (le32 (s.reg 0x1D)) ∧
      t.fe.store = s.fe.store := by
  have hfield : tsField s.params.tsShift (s.reg 0x1D) = s.fe.store.ts :=
    FeStore.tsField_rfStatus (Params.tsShift_le_of_wf hw) s.fe.kind s.fe.store
  have hstart := Chain.start hq
  have hrun := getTransceiveState_quiet (s := s.accept) hstart.quiet hd
  have hend := hstart.read (addr := 0x1D) (by decide) (le32 (s.reg 0x1D))
  obtain ⟨haround, hstore, hrequests, hcompletion, -, htraffic⟩ :=
    hend.done ⟨.ok, .transceiveState (transceiveState s.fe.store.ts)⟩
  exact ⟨_, performOperation_ok (by rw [hrun, ← hfield]; rfl) hend.refused,
    { completion := hcompletion, traffic := htraffic, around := haround, latches := ⟨rfl, rfl⟩, requests := hrequests }, hstore⟩

end

/-! ## The statements -/

/-- Settles O36: one chain of a single read, whose value is latched; the store is as it was. -/
theorem getIrqStatusReads : Obligations.GetIrqStatusReads := by
  intro s rest hq hb hd hr
  obtain ⟨t, ht, hcompletion, hsnap, hpe, htraffic, haround, hstore, hrequests⟩ := opGetIrqStatus_quiet (hq.taken rest) hd
  obtain ⟨hregisters, hkept⟩ := haround.ofTaken.kept_of_store hstore
  exact ⟨t, (step_of_idle hb hr).trans ht, hcompletion, hsnap, hpe, htraffic, haround.ofTaken, hregisters, hkept, hrequests⟩

/-- Settles O37: ClearIrqStatus is the write of IRQ_CLEAR that O12 speaks of. -/
theorem clearIrqStatusClears : Obligations.ClearIrqStatusClears := by
  intro s m rest hq hb hd hr
  obtain ⟨t, ht, hdone, hflags, hregisters, hkept⟩ := writeIrqClearClears _ m (hq.taken rest) hd
  exact ⟨t, (step_of_idle hb hr).trans ht, hdone, hflags, hregisters, hkept.ofTaken⟩

/-- Settles O38: one chain of a single read, whose state field is the state the front-end holds. -/
theorem getTransceiveStateReads : Obligations.GetTransceiveStateReads := by
  intro s rest hq hb hd hw hr
  obtain ⟨t, ht, hdone, hstore⟩ := opGetTransceiveState_quiet (hq.taken rest) hd hw
  exact ⟨t, (step_of_idle hb hr).trans ht, hdone, hdone.around.ofTaken.kept_of_store hstore⟩

/-- Settles O39: the decoder at each of the eight numbers. -/
theorem transceiveStateNumbers : Obligations.TransceiveStateNumbers := ⟨rfl, rfl, rfl, rfl, rfl, rfl, rfl, rfl⟩

/-- Settles O40: a fitted line is sampled once, with no frame; without the line nothing is accepted. -/
theorem isIrqAssertedSamples : Obligations.IsIrqAssertedSamples := by
  intro s rest hb hr
  refine ⟨fun hfit => ?_, fun hfit => ⟨_, (step_of_idle hb hr).trans (if_neg (by simp [hfit])), endUnsupported_rejected _⟩⟩
  obtain ⟨hstore, hbusy⟩ := s.fe.nextIrq_keeps
  exact ⟨_, s.fe.irqLevel, (step_of_idle hb hr).trans ((if_pos hfit).trans (performOperation_ok rfl rfl)), rfl,
    irqLevel_reference, irqLevel_unconstrained, ⟨[.irq s.fe.irqLevel], rfl, rfl, rfl, rfl⟩, hstore, hbusy, rfl, rfl⟩

end Sys2Proof.Machine
end

section
/-! SUPPORT. An operation as the commands the front-end has processed: one account of a composite operation for a front-end of either
kind, whatever it does of its own. The commands so far, the newest first, fix what the front-end holds, the traffic and every value
read, so that an operation is described by its list of commands and its results are computed from that list. -/

namespace Sys2Proof.Machine

/-! ## What the commands leave in the front-end -/

/-- What an own action makes of the store (`FrontEnd.applyAct`). -/
def FeStore.acted (a : FeAct) (f : FeStore) : FeStore :=
  { f with
    irqStatus := f.irqStatus ||| a.irqSet
    rxStatus := a.rxStatus.getD f.rxStatus
    ts := a.ts.getD f.ts
    rfStatusRest := a.rfStatusRest.getD f.rfStatusRest
    rxbuf := (a.rxbuf.map (List.take Config.maxRead)).getD f.rxbuf
    rfOn := a.fieldAfter f.rfOn }

theorem FrontEnd.applyAct_store (a : FeAct) (fe : FrontEnd) : (fe.applyAct a).store = fe.store.acted a := rfl

@[simp] theorem FeStore.acted_nothing (f : FeStore) : f.acted FeAct.nothing = f := by
  simp [FeStore.acted, FeAct.nothing, FeAct.flags, FeAct.fieldAfter]

@[simp] theorem FeStore.acted_state (n : BitVec 3) (f : FeStore) : f.acted (FeAct.state n) = { f with ts := n } := by
  simp [FeStore.acted, FeAct.state, FeAct.fieldAfter]

/-- The own actions left after so many frames. -/
def State.actsAfter (s : State) : Nat → List FeAct
  | 0 => s.fe.inputs.acts
  | k + 1 => s.fe.kind.laterActs (s.actsAfter k)

/-- The own action before the frame of this number, counted from 0. -/
def State.act (s : State) (k : Nat) : FeAct := s.fe.kind.nextAct (s.actsAfter k)

/-- What the front-end holds after these commands, the newest first, each with its own action before it. -/
def State.ran (s : State) : List Instr → FeStore
  | [] => s.fe.store
  | i :: past => ((s.ran past).acted (s.act past.length)).react s.params s.fe.kind i

/-- What it holds as the next command meets it. -/
def State.met (s : State) (past : List Instr) : FeStore := (s.ran past).acted (s.act past.length)

/-- What a read of a register returns after these commands. -/
def State.shows (s : State) (past : List Instr) (a : Byte) : Word := (s.met past).regRead s.params s.fe.kind a

/-- The bytes captured in the read frames of these commands. -/
def State.captured (s : State) : List Instr → List Byte
  | [] => []
  | i :: past => s.captured past ++ (s.met past).answer s.params s.fe.kind i

/-- The bytes sent in their write frames. -/
def framesSent : List Instr → List Byte
  | [] => []
  | i :: past => framesSent past ++ (encode i).frame

/-- How many frames they take. -/
def frameCount : List Instr → Nat
  | [] => 0
  | i :: past => frameCount past + (if (encode i).readLen = 0 then 1 else 2)

theorem State.ran_cons (s : State) (i : Instr) (past : List Instr) :
    s.ran (i :: past) = (s.met past).react s.params s.fe.kind i := rfl

theorem State.actsAfter_reference {s : State} (hk : s.fe.kind = .reference) (k : Nat) :
    s.actsAfter k = s.fe.inputs.acts := by
  induction k with
  | zero => rfl
  | succ k ih => rw [State.actsAfter, hk]; exact ih

theorem State.actsAfter_unconstrained {s : State} (hk : s.fe.kind = .unconstrained) (k : Nat) :
    s.actsAfter k = s.fe.inputs.acts.drop k := by
  induction k with
  | zero => rfl
  | succ k ih => rw [State.actsAfter, hk, ih]; exact List.tail_drop

/-- FE_REF does nothing of its own (R60). -/
theorem State.act_reference {s : State} (hk : s.fe.kind = .reference) (k : Nat) : s.act k = FeAct.nothing := by
  rw [State.act, hk]
  rfl

theorem State.met_of_idle {s : State} {past : List Instr} (h : s.act past.length = FeAct.nothing) : s.met past = s.ran past := by
  rw [State.met, h, FeStore.acted_nothing]

theorem State.met_reference {s : State} (hk : s.fe.kind = .reference) (past : List Instr) : s.met past = s.ran past :=
  State.met_of_idle (State.act_reference hk _)

/-- From the frame of this number on the own actions are those of the list, and after them the front-end does nothing. -/
def State.ActsFrom (s : State) (k : Nat) (l : List FeAct) : Prop := ∀ j, s.act (k + j) = l.getD j FeAct.nothing

/-- The own actions of a front-end that is not FE_REF are those of the list it acts as. -/
theorem State.ActsAs.actsFrom {s : State} {l : List FeAct} (h : s.ActsAs l) (hk : s.fe.kind = .unconstrained) :
    s.ActsFrom 0 l := by
  intro k
  obtain ⟨m, rfl⟩ := h
  rw [Nat.zero_add, State.act, hk, State.actsAfter_unconstrained hk, FeKind.nextAct, List.headD_eq_head?_getD, List.head?_drop,
    List.getD_eq_getElem?_getD, List.getElem?_append]
  split
  · rfl
  · next hn =>
    rw [List.getElem?_eq_none (Nat.not_lt.1 hn), List.getElem?_replicate]
    split <;> rfl

section

variable {s : State} {k : Nat} {a : FeAct} {l m : List FeAct}

theorem State.ActsFrom.head (h : s.ActsFrom k (a :: l)) : s.act k = a := h 0

theorem State.ActsFrom.tail (h : s.ActsFrom k (a :: l)) : s.ActsFrom (k + 1) l := fun j => by
  rw [Nat.add_right_comm]
  exact h (j + 1)

theorem State.ActsFrom.drop (h : s.ActsFrom k (l ++ m)) : s.ActsFrom (k + l.length) m := fun j => by
  rw [Nat.add_assoc, h, List.getD_append_right _ _ _ _ (Nat.le_add_right _ _), Nat.add_sub_cancel_left]

theorem State.ActsFrom.idle {n j : Nat} (h : s.ActsFrom k (List.replicate n FeAct.nothing ++ l)) (hj : j < n) :
    s.act (k + j) = FeAct.nothing := by
  rw [h, List.getD_append _ _ _ _ (by rwa [List.length_replicate]), List.getD_replicate _ hj]

/-- After the last of its own actions. -/
theorem State.ActsFrom.done {past after : List Instr} (h : s.ActsFrom past.length []) :
    s.act (after ++ past).length = FeAct.nothing := by
  rw [List.length_append, Nat.add_comm]
  exact h after.length

/-- FE_REF does nothing of its own, for as long as one looks. -/
theorem State.actsFrom_reference (hk : s.fe.kind = .reference) (k n : Nat) :
    s.ActsFrom k (List.replicate n FeAct.nothing) := fun j => by
  rw [State.act_reference hk, List.getD_eq_getElem?_getD, List.getElem?_getD_replicate_default_eq]

end

section

variable (a b : List Instr)

theorem framesSent_append : framesSent (a ++ b) = framesSent b ++ framesSent a := by
  induction a with
  | nil => exact (List.append_nil _).symm
  | cons i a ih => rw [List.cons_append, framesSent, ih, List.append_assoc, framesSent]

theorem frameCount_append : frameCount (a ++ b) = frameCount b + frameCount a := by
  induction a with
  | nil => rfl
  | cons i a ih => rw [List.cons_append, frameCount, ih, Nat.add_assoc, frameCount]

end

/-- A command without a read frame returns nothing (R102). -/
theorem FeStore.answer_eq_nil {i : Instr} (h : (encode i).readLen = 0) (p : Params) (kind : FeKind) (f : FeStore) :
    f.answer p kind i = [] := by
  cases i with
  | readRegister addr => cases h
  | readEEPROM addr n => cases h; rfl
  | readData n => cases h; cases kind <;> rfl
  | writeRegister | writeRegisterOrMask | writeRegisterAndMask | writeEEPROM | sendData | switchMode | loadRFConfig | rfOn | rfOff =>
      rfl

/-! ## The account -/

/-- From `s` to `t` inside one operation, with a front-end that adds no line level and no byte, these commands were processed, the
newest first, and nothing else has changed around them. It is `Chain` and `CalmChain` in one, for the statements about
ProtocolTransact, which speak of FE_REF, of a front-end whose actions are given and of one that does anything of its own. -/
structure Ran (s t : State) (past : List Instr) : Prop where
  calm : t.Calm
  store : t.fe.store = s.ran past
  params : t.params = s.params
  kind : t.fe.kind = s.fe.kind
  irq : s.fe.kind = .reference → t.fe.irq = s.fe.irq
  inputs : t.fe.inputs = { s.fe.inputs with acts := s.actsAfter past.length }
  resetIn : t.resetIn = s.resetIn
  requests : t.requests = s.requests
  rst : t.xcvr.rst = s.xcvr.rst
  refused : t.refused = none
  traffic : Traffic s t (frameCount past) (framesSent past) (s.captured past)

/-- A run that is stopped, if at all, by an operand check, and not where these conditions hold. -/
def Rejects (ok : Prop) (why : Stop) (_ : State) : Prop := (∃ kind, why = .outcome (.paramError kind)) ∧ ¬ ok

/-- Under those conditions the run goes on. -/
theorem Run.Sat.goesOn {α : Type} {m : Run α} {ok : Prop} {Q : α → State → Prop} (h : m.Sat Q (Rejects ok)) (hok : ok) :
    ∃ a t, m = .ok a t ∧ Q a t := by
  cases m with
  | ok a t => exact ⟨a, t, rfl, h⟩
  | stop why t => exact absurd hok h.2

/-- The operation has just been accepted. -/
theorem Ran.start {s : State} (h : s.Calm) : Ran s s.accept [] :=
  { calm := ⟨h.busy, h.lines, h.noReset⟩, store := rfl, params := rfl, kind := rfl, irq := fun _ => rfl, inputs := rfl
    resetIn := rfl, requests := rfl, rst := rfl, refused := rfl, traffic := .refl s }

section

variable {s t u : State} {past : List Instr} {i : Instr} {ok : Prop}

/-- A change of the engine's registers is no command. -/
theorem Ran.onPe (h : Ran s t past) (g : PeRegs → PeRegs) : Ran s (t.onPe g) past :=
  { h with calm := { h.calm with }, traffic := h.traffic }

/-- A change of stage is no command. -/
theorem Ran.stage (h : Ran s t past) (p : PeStage) : Ran s (t.stage p) past :=
  { h with calm := { h.calm with }, traffic := h.traffic.log rfl }

/-- The latch of the decoder is no command (R28). -/
theorem Ran.latch (h : Ran s t past) (v : Word) : Ran s { t with xcvr := { t.xcvr with irqSnap := v } } past :=
  { h with calm := { h.calm with }, traffic := h.traffic }

/-- The front-end as it meets the next command. -/
theorem Ran.acted (h : Ran s t past) : (t.onFe FrontEnd.ownAction).fe =
    { t.fe.applyAct (s.act past.length) with inputs := { s.fe.inputs with acts := s.actsAfter (past.length + 1) } } := by
  have hacts : t.fe.inputs.acts = s.actsAfter past.length := by rw [h.inputs]
  rw [State.onFe_fe, FrontEnd.ownAction_eq, h.kind, hacts, h.inputs]
  rfl

theorem Ran.acted_store (h : Ran s t past) : (t.onFe FrontEnd.ownAction).fe.store = s.met past := by
  rw [h.acted, State.met, ← h.store]
  exact FrontEnd.applyAct_store _ _

/-- One command more: the front-end has met and processed it, and its traffic is the newest. -/
theorem Ran.next (h : Ran s t past) {reply : List Byte} (hc : u.Calm)
    (hfe : u.fe = { (t.onFe FrontEnd.ownAction).fe.answered t.params i with reply := reply }) (hp : u.params = t.params)
    (hr : u.resetIn = t.resetIn) (hq : u.requests = t.requests) (hx : u.xcvr.rst = t.xcvr.rst) (hn : u.refused = t.refused)
    (ht : Traffic s u (frameCount (i :: past)) (framesSent (i :: past)) (s.captured (i :: past))) : Ran s u (i :: past) :=
  { calm := hc
    store := by
      have hs := h.acted_store
      have hk : (t.onFe FrontEnd.ownAction).fe.kind = s.fe.kind := t.fe.ownAction_kind.trans h.kind
      rw [hfe, State.ran_cons, ← hs, ← hk, ← h.params]
      rfl
    params := hp.trans h.params
    kind := by rw [hfe]; exact t.fe.ownAction_kind.trans h.kind
    irq := fun hk => by
      rw [hfe, h.acted, State.act_reference hk, FrontEnd.applyAct_nothing]
      exact h.irq hk
    inputs := by rw [hfe, h.acted]; rfl
    resetIn := hr.trans h.resetIn, requests := hq.trans h.requests, rst := hx.trans h.rst, refused := hn.trans h.refused
    traffic := ht }

/-- A command without a result, where FE_REF does not refuse it: it is processed, or it fails its operand check. -/
theorem Ran.sends (h : Ran s t past) (hn : (encode i).readLen = 0) (hok : ok → paramError s.params i = none)
    (hf : s.fe.kind = .reference → refusedByReference (s.ran past) i = none) :
    (sendCommand i t).Sat (fun _ u => Ran s u (i :: past)) (Rejects ok) := by
  cases hp : paramError s.params i with
  | some kind =>
    rw [sendCommand_rejected (by rw [h.params, hp])]
    exact ⟨⟨kind, rfl⟩, fun hk => by rw [hok hk] at hp; cases hp⟩
  | none =>
    rw [sendCommand_calm h.calm (by rw [h.params, hp]) (by rwa [h.kind, h.store]) (decode_encode (wf_of_paramError_none hp)) hn]
    refine h.next (commandSent_calm i h.calm) rfl rfl rfl rfl rfl rfl ?_
    rw [frameCount, if_pos hn, framesSent, State.captured, FeStore.answer_eq_nil hn]
    exact h.traffic.append (commandSent_trace i _) (framesOpened_exchange _) (bytesSent_exchange _) (bytesCaptured_exchange _)

/-- A command with a result, where FE_REF does not refuse it: the bytes are those the front-end prepared. -/
theorem Ran.queries (h : Ran s t past) (hn : (encode i).readLen ≠ 0) (hok : ok → paramError s.params i = none)
    (hf : s.fe.kind = .reference → refusedByReference (s.ran past) i = none)
    (hlen : (encode i).readLen = ((s.met past).answer s.params s.fe.kind i).length) :
    (queryCommand i t).Sat (fun b u => b = (s.met past).answer s.params s.fe.kind i ∧ Ran s u (i :: past)) (Rejects ok) := by
  cases hp : paramError s.params i with
  | some kind =>
    rw [queryCommand_rejected (by rw [h.params, hp])]
    exact ⟨⟨kind, rfl⟩, fun hk => by rw [hok hk] at hp; cases hp⟩
  | none =>
    rw [queryCommand_calm h.calm (by rw [h.params, hp]) (by rwa [h.kind, h.store]) (decode_encode (wf_of_paramError_none hp))
      (by rw [h.params, h.kind, ← h.acted_store]; rfl) hlen]
    refine ⟨rfl, h.next (commandQueried_calm i _ h.calm) rfl rfl rfl rfl rfl rfl ?_⟩
    rw [frameCount, if_neg hn]
    exact h.traffic.append (commandQueried_trace i _ _) (framesOpened_exchangeRead _ _) (bytesSent_exchangeRead _ _)
      (bytesCaptured_exchangeRead _ _)

/-- ReadRegister as a part of an operation. -/
theorem Ran.reads (h : Ran s t past) {addr : Byte} (h3 : addr ≠ 0x03) (hok : ok → registerDefined s.params addr = true) :
    (readRegister addr t).Sat (fun v u => v = s.shows past addr ∧ Ran s u (.readRegister addr :: past)) (Rejects ok) := by
  refine Run.Sat.map (Run.Sat.mono (h.queries (i := .readRegister addr) nofun (fun hk => (registerError_none _ _).2 (hok hk))
    (fun _ => if_neg h3) rfl) (fun b u hb => ?_) fun _ _ => id)
  exact ⟨by rw [hb.1]; exact unle32_le32 _, hb.2⟩

/-- The end of the operation: everything around it. -/
theorem Ran.around (h : Ran s t past) (hk : s.fe.kind = .reference) (c : Completion) : BlockAround s (t.complete c) :=
  { idle := rfl, rst := h.rst, params := h.params, resetIn := h.resetIn, feKind := h.kind, feIrq := h.irq hk
    feInputs := by
      rw [State.complete_fe, h.inputs, State.actsAfter_reference hk] }

/-- A register at the end of the operation. -/
theorem Ran.reg (h : Ran s t past) (c : Completion) (a : Byte) :
    (t.complete c).reg a = (s.ran past).regRead s.params s.fe.kind a := by
  rw [State.reg, State.complete_fe, h.store, State.complete_params, h.params, h.kind]

end

end Sys2Proof.Machine
end

section
/-! SUPPORT. ProtocolTransact as the commands it sends (R200 to R218), with a front-end that adds no line level and no byte: which
commands each stage adds, what the transmit-ready check and the wait for the start-of-frame flag decide, and the completion record. -/

namespace Sys2Proof.Machine

/-! ## The commands of the stages -/

/-- The frame of a CRC control, none for Keep (R203). -/
def crcCommand (mask : Word) (addr : Byte) : CrcControl → List Instr
  | .on => [.writeRegisterOrMask addr mask]
  | .off => [.writeRegisterAndMask addr (~~~mask)]
  | .keep => []

/-- The idle command and the start-transceive command, the newest first (R205). -/
def cycleCommands (p : Params) : List Instr :=
  [.writeRegisterOrMask 0x00 p.cmdTransceive, .writeRegisterAndMask 0x00 (~~~p.cmdMask)]

/-- The commands before the transmit-ready check, the newest first (R203, R205). -/
def State.beforeCheck (s : State) (p : ProtocolRequest) : List Instr :=
  (if p.transceiveCycle then cycleCommands s.params else []) ++
    (crcCommand s.params.crcEnMask 0x12 p.crcRx ++ crcCommand s.params.crcEnMask 0x19 p.crcTx)

/-- The commands before SendData, the newest first: those, and the read of RF_STATUS where the check is made (R206). -/
def State.beforeSend (s : State) (p : ProtocolRequest) : List Instr :=
  (if p.transceiveCycle && s.params.rigorCheckWaitTransmit then [.readRegister 0x1D] else []) ++ s.beforeCheck p

/-- The state the transmit-ready check finds, where it is made and that is not WaitTransmit (R206). -/
def State.notReady (s : State) (p : ProtocolRequest) : Option (BitVec 3) :=
  if p.transceiveCycle && s.params.rigorCheckWaitTransmit then
    let n := tsField s.params.tsShift (s.shows (s.beforeCheck p) 0x1D)
    if n = 1 then none else some n
  else none

/-- The commands up to SendData, the newest first (R207). -/
def State.sent (s : State) (p : ProtocolRequest) : List Instr := .sendData p.req p.validBits :: s.beforeSend p

/-- The wait for the start-of-frame flag after these commands, with so many polls left: whether it is seen, and the commands it
leaves (R208, R278). -/
def State.awaited (s : State) : Nat → List Instr → Bool × List Instr
  | 0, past => (false, past)
  | left + 1, past =>
      if (s.shows past 0x02).getLsbD rxSofDetBit then (true, .readRegister 0x02 :: past)
      else s.awaited left (.readRegister 0x02 :: past)

/-- The wait of a request that has passed the check. -/
def State.waited (s : State) (p : ProtocolRequest) : Bool × List Instr :=
  s.awaited s.params.nRespPolls (s.sent p)

/-- ProtocolTransact up to the fetch: what it leads to, and the commands so far (R200). -/
def State.front (s : State) (p : ProtocolRequest) : (OpOutcome ⊕ Nat) × List Instr :=
  match s.notReady p with
  | some n => (.inl (.preconditionViolation n), s.beforeSend p)
  | none =>
      if (s.waited p).1 then
        (lengthVerdict (lengthField (s.shows (s.waited p).2 0x13)).toNat, .readRegister 0x13 :: (s.waited p).2)
      else (.inl .noCard, (s.waited p).2)

/-- The flag clear of the engine (R216). -/
def clearFlags : Instr := .writeRegister 0x03 engineFlags

/-- The completion record of a response (R215, R217). -/
def ProtocolRequest.delivers (p : ProtocolRequest) (resp : List Byte) : Completion :=
  if p.classify then ⟨(classifyResponse resp).1, .response resp (classifyResponse resp).2⟩
  else ⟨.ok, .response resp none⟩

/-- What the engine asks of its parameters and its request, for no operand check to fail (log entry 33). -/
def State.engineOk (s : State) (p : ProtocolRequest) : Prop := s.params.usesDefined = true ∧ p.accepted = true

/-! ## The stages, one by one -/

section

variable {s t : State} {past : List Instr} {p : ProtocolRequest}

theorem State.engineOk.defined (h : s.engineOk p) {a : Byte} (ha : a ∈ [0x00, 0x02, 0x03, 0x12, 0x13, 0x19, 0x1D]) :
    registerDefined s.params a = true := registerDefined_of_usesDefined h.1 ha

theorem State.engineOk.sendData (h : s.engineOk p) : paramError s.params (.sendData p.req p.validBits) = none := by
  have ha := h.2
  simp only [ProtocolRequest.accepted, Bool.and_eq_true, decide_eq_true_eq] at ha
  obtain ⟨⟨h1, h2⟩, hv⟩ := ha
  exact paramError_sendData h1 h2 hv

theorem engineCheck_ran (h : Ran s t past) :
    (engineCheck p t).Sat (fun _ u => Ran s u past) (Rejects (s.engineOk p)) := by
  unfold engineCheck checkOperands
  cases hp : paramError s.params (.sendData p.req p.validBits) with
  | none =>
    rw [State.onPe_params, h.params, hp]
    exact h.onPe _
  | some kind =>
    rw [State.onPe_params, h.params, hp]
    exact ⟨⟨kind, rfl⟩, fun hok => by rw [hok.sendData] at hp; cases hp⟩

/-- A masked write to a register the engine writes so: a CRC control or the command field. -/
inductive Masked : Instr → Prop where
  | or {a : Byte} (m : Word) (ha : a ∈ [0x00, 0x12, 0x19]) : Masked (.writeRegisterOrMask a m)
  | and {a : Byte} (m : Word) (ha : a ∈ [0x00, 0x12, 0x19]) : Masked (.writeRegisterAndMask a m)

/-- Such a register is a plain one, and one of those the engine asks for. -/
theorem isPlainReg_of_masked {a : Byte} (ha : a ∈ [0x00, 0x12, 0x19]) :
    isPlainReg a = true ∧ a ∈ [0x00, 0x02, 0x03, 0x12, 0x13, 0x19, 0x1D] := by
  revert a
  decide

theorem Ran.sendsMasked (h : Ran s t past) {i : Instr} (hi : Masked i) :
    (sendCommand i t).Sat (fun _ u => Ran s u (i :: past)) (Rejects (s.engineOk p)) := by
  cases hi with
  | or m ha | and m ha =>
    obtain ⟨hplain, hused⟩ := isPlainReg_of_masked ha
    exact h.sends rfl (fun hok => (registerError_none _ _).2 (hok.defined hused)) fun _ => if_pos hplain

theorem crcControl_ran (h : Ran s t past) {a : Byte} (ha : a ∈ [0x00, 0x12, 0x19]) (c : CrcControl) :
    (crcControl a c t).Sat (fun _ u => Ran s u (crcCommand s.params.crcEnMask a c ++ past)) (Rejects (s.engineOk p)) := by
  unfold crcControl
  rw [h.params]
  cases c with
  | on => exact h.sendsMasked (.or _ ha)
  | off => exact h.sendsMasked (.and _ ha)
  | keep => exact h

theorem crcStage_ran (h : Ran s t []) :
    (crcStage p t).Sat
      (fun _ u => Ran s u (crcCommand s.params.crcEnMask 0x12 p.crcRx ++ crcCommand s.params.crcEnMask 0x19 p.crcTx))
      (Rejects (s.engineOk p)) := by
  refine (crcControl_ran h (by decide) _).andThen fun _ u hu => ?_
  rw [List.append_nil] at hu
  exact (crcControl_ran hu (by decide) _).andThen fun _ u hu => hu.stage _

theorem startTransceive_ran (h : Ran s t past) :
    (startTransceive t).Sat (fun _ u => Ran s u (cycleCommands s.params ++ past)) (Rejects (s.engineOk p)) := by
  unfold startTransceive
  rw [h.params]
  refine (h.sendsMasked (.and _ (by decide))).andThen fun _ u hu => ?_
  rw [hu.params]
  exact hu.sendsMasked (.or _ (by decide))

/-- A read of a register the engine uses. -/
theorem Ran.readsUsed (h : Ran s t past) {a : Byte} (ha : a ∈ [0x02, 0x13, 0x1D]) :
    (readRegister a t).Sat (fun v u => v = s.shows past a ∧ Ran s u (.readRegister a :: past)) (Rejects (s.engineOk p)) := by
  have hm : a ≠ 0x03 ∧ a ∈ [0x00, 0x02, 0x03, 0x12, 0x13, 0x19, 0x1D] := by
    revert a
    decide
  exact h.reads hm.1 fun hok => hok.defined hm.2

theorem getTransceiveState_ran (h : Ran s t past) :
    (getTransceiveState t).Sat
      (fun n u => n = tsField s.params.tsShift (s.shows past 0x1D) ∧ Ran s u (.readRegister 0x1D :: past))
      (Rejects (s.engineOk p)) := by
  refine (h.readsUsed (by decide)).andThen fun v u hu => ?_
  obtain ⟨rfl, hu⟩ := hu
  exact ⟨by rw [hu.params], hu⟩

theorem getIrqStatus_ran (h : Ran s t past) :
    (getIrqStatus t).Sat (fun v u => v = s.shows past 0x02 ∧ Ran s u (.readRegister 0x02 :: past)) (Rejects (s.engineOk p)) :=
  (h.readsUsed (by decide)).andThen fun v _ hu => ⟨hu.1, hu.2.latch v⟩

theorem transceiveStage_ran
    (h : Ran s t (crcCommand s.params.crcEnMask 0x12 p.crcRx ++ crcCommand s.params.crcEnMask 0x19 p.crcTx)) :
    (transceiveStage p t).Sat (fun bad u => bad = s.notReady p ∧ Ran s u (s.beforeSend p)) (Rejects (s.engineOk p)) := by
  unfold transceiveStage
  cases hc : p.transceiveCycle with
  | false => exact ⟨by simp [State.notReady, hc], by simpa [State.beforeSend, State.beforeCheck, hc] using h⟩
  | true =>
    refine Run.Sat.andThen (startTransceive_ran h) fun _ u hu => ?_
    unfold readyCheck
    rw [hu.params]
    have hbefore : Ran s u (s.beforeCheck p) := by simpa [State.beforeCheck, hc] using hu
    cases hr : s.params.rigorCheckWaitTransmit with
    | false => exact ⟨by simp [State.notReady, hr], by simpa [State.beforeSend, hr] using hbefore⟩
    | true =>
      refine Run.Sat.map (Run.Sat.mono (getTransceiveState_ran hbefore) (fun n u hu => ?_) fun _ _ => id)
      obtain ⟨rfl, hu⟩ := hu
      exact ⟨by simp [State.notReady, hc, hr], by simpa [State.beforeSend, hc, hr] using hu⟩

theorem awaitStart_ran (left : Nat) : ∀ {t : State} {past : List Instr}, Ran s t past →
    (awaitStart left t).Sat (fun seen u => seen = (s.awaited left past).1 ∧ Ran s u (s.awaited left past).2)
      (Rejects (s.engineOk p)) := by
  induction left with
  | zero => exact fun h => ⟨rfl, h⟩
  | succ left ih =>
    intro t past h
    refine Run.Sat.andThen (getIrqStatus_ran h) fun v u hu => ?_
    obtain ⟨rfl, hu⟩ := hu
    unfold State.awaited
    split
    · exact ⟨rfl, hu⟩
    · exact ih (hu.onPe _)

theorem readLength_ran (h : Ran s t past) :
    (readLength t).Sat (fun n u => n = (lengthField (s.shows past 0x13)).toNat ∧ Ran s u (.readRegister 0x13 :: past))
      (Rejects (s.engineOk p)) := by
  refine (h.readsUsed (by decide)).andThen fun v u hu => ?_
  obtain ⟨rfl, hu⟩ := hu
  exact ⟨rfl, hu.onPe _⟩

theorem transmitAndAwait_ran (h : Ran s t (s.beforeSend p)) (hn : s.notReady p = none) :
    (transmitAndAwait p t).Sat (fun v u => v = (s.front p).1 ∧ Ran s u (s.front p).2) (Rejects (s.engineOk p)) := by
  refine (h.sends (i := .sendData p.req p.validBits) rfl (fun hok => hok.sendData) fun _ => rfl).andThen fun _ u hu => ?_
  rw [hu.params]
  refine (awaitStart_ran _ ((hu.stage .awaitingResponse).onPe _)).andThen fun seen u hu => ?_
  obtain ⟨rfl, hu⟩ := hu
  change Ran s u (s.waited p).2 at hu
  change (if (s.waited p).1 = true then _ else _ : Run _).Sat _ _
  simp only [State.front, hn]
  split
  · refine (readLength_ran hu).andThen fun n u hu => ?_
    obtain ⟨rfl, hu⟩ := hu
    exact ⟨rfl, hu⟩
  · exact ⟨rfl, hu⟩

theorem engineFront_ran (h : s.Calm) :
    (engineFront p s.accept).Sat (fun v u => v = (s.front p).1 ∧ Ran s u (s.front p).2) (Rejects (s.engineOk p)) := by
  refine (engineCheck_ran (Ran.start h)).andThen fun _ u hu => (crcStage_ran hu).andThen fun _ u hu =>
    (transceiveStage_ran (hu.stage .transmitting)).andThen fun bad u hu => ?_
  obtain ⟨rfl, hu⟩ := hu
  cases hn : s.notReady p with
  | some n =>
    simp only [State.front, hn]
    exact ⟨rfl, hu⟩
  | none => exact transmitAndAwait_ran hu hn

theorem finish_ran (h : Ran s t past) (c : Completion) :
    (finish c t).Sat (fun d u => d = c ∧ Ran s u (clearFlags :: past)) (Rejects (s.engineOk p)) :=
  (((h.stage .classified).onPe _).sends (i := clearFlags) rfl
    (fun hok => (registerError_none _ _).2 (hok.defined (by decide))) fun _ => rfl).andThen fun _ _ hu => ⟨rfl, hu.stage _⟩

/-- The fetch, of a response that FE_REF holds (R64). -/
theorem engineBack_ran (h : Ran s t past) {n : Nat} (h1 : 1 ≤ n) (h2 : n ≤ 508)
    (hf : s.fe.kind = .reference → n ≤ (s.ran past).rxbuf.length) :
    (engineBack p n t).Sat
      (fun c u => c = p.delivers ((s.met past).answerReadData s.fe.kind n) ∧
        Ran s u (clearFlags :: .readData n :: past)) (Rejects (s.engineOk p)) := by
  have hlen : ((s.met past).answerReadData s.fe.kind n).length = n :=
    FeStore.answerReadData_length fun hk => by rw [State.met_reference hk]; exact hf hk
  refine (h.queries (i := .readData n) (Nat.one_le_iff_ne_zero.1 h1)
    (fun _ => (readError_none n).2 ((readLengthOk_iff n).2 ⟨h1, h2⟩)) (fun hk => if_neg (Nat.not_lt.2 (hf hk)))
    hlen.symm).andThen fun resp u hu => ?_
  obtain ⟨rfl, hu⟩ := hu
  refine (finish_ran (((hu.onPe _).stage .responseFetched).onPe _) _).mono (fun c u hc => ⟨?_, hc.2⟩) fun _ _ => id
  rw [hc.1, ProtocolRequest.delivers]
  split <;> rfl

/-! ## The whole operation -/

/-- The commands of the whole operation, the newest first. -/
def State.commands (s : State) (p : ProtocolRequest) : List Instr :=
  match (s.front p).1 with
  | .inl _ => clearFlags :: (s.front p).2
  | .inr n => clearFlags :: .readData n :: (s.front p).2

/-- Its completion record (R218). -/
def State.record (s : State) (p : ProtocolRequest) : Completion :=
  match (s.front p).1 with
  | .inl o => ⟨o, .none⟩
  | .inr n => p.delivers ((s.met (s.front p).2).answerReadData s.fe.kind n)

/-- FE_REF holds the bytes of the fetch, where there is one (R64). -/
def State.holdsFetch (s : State) (p : ProtocolRequest) : Prop :=
  ∀ n, (s.front p).1 = .inr n → s.fe.kind = .reference → n ≤ (s.ran (s.front p).2).rxbuf.length

theorem lengthVerdict_inr {m n : Nat} (h : lengthVerdict m = .inr n) : 1 ≤ n ∧ n ≤ 508 := by
  unfold lengthVerdict at h
  split at h
  · cases h
  · split at h
    · cases h
    · next h0 hmax =>
      cases h
      simp only [Config.maxRead, not_lt] at hmax
      omega

theorem State.front_inr {n : Nat} (h : (s.front p).1 = .inr n) : 1 ≤ n ∧ n ≤ 508 := by
  unfold State.front at h
  split at h
  · cases h
  · split at h
    · exact lengthVerdict_inr h
    · cases h

/-- The engine sends these commands and delivers this record, or an operand check stops it. -/
theorem engine_ran (h : s.Calm) (hf : s.holdsFetch p) :
    (engine p s.accept).Sat (fun c u => c = s.record p ∧ Ran s u (s.commands p)) (Rejects (s.engineOk p)) := by
  refine (engineFront_ran h).andThen fun v u hu => ?_
  obtain ⟨rfl, hu⟩ := hu
  unfold State.record State.commands
  cases hv : (s.front p).1 with
  | inl o => exact finish_ran hu _
  | inr n =>
    obtain ⟨h1, h2⟩ := State.front_inr hv
    exact engineBack_ran hu h1 h2 (hf n hv)

/-- ProtocolTransact where no operand check fails and FE_REF does not refuse the fetch. -/
theorem opProtocolTransact_ran (h : s.Calm) (hok : s.engineOk p) (hf : s.holdsFetch p) :
    ∃ u, opProtocolTransact p s = .next (u.complete (s.record p)) ∧ Ran s u (s.commands p) := by
  obtain ⟨c, u, he, rfl, hu⟩ := (engine_ran h hf).goesOn hok
  exact ⟨u, opProtocolTransact_ok he hu.refused, hu⟩

end

section

variable {r : Refusal} {s : State}

/-! ## A refusal stays (R66) -/

theorem assertSelect_staysRefused (d : BtDir) (h : s.refused = some r) : (assertSelect d s).StaysRefused r := by
  refine Run.Sat.andThen (pulse_staysRefused (s := s.enter .settleA) h) fun _ t ht => settle_staysRefused ?_
  cases d <;> exact ht

theorem sendByte_staysRefused (b : Byte) (h : s.refused = some r) : (sendByte b s).StaysRefused r :=
  (pulse_staysRefused h).andThen fun _ _ h => h

theorem sendBytes_staysRefused (bytes : List Byte) : ∀ {s : State}, s.refused = some r →
    (sendBytes bytes s).StaysRefused r := by
  induction bytes with
  | nil => exact fun h => h
  | cons b bytes ih =>
    exact fun h => Run.Sat.andThen (sendByte_staysRefused b h) fun _ _ h => ih h

theorem finishFrame_staysRefused (d : BtDir) (n : Nat) (h : s.refused = some r) : (finishFrame d n s).StaysRefused r :=
  Run.Sat.andThen (waitBusy_staysRefused (s := s.onFe FrontEnd.raiseBusy) _ _ _ h) fun _ _ h =>
    Run.Sat.andThen (releaseSelect_staysRefused d n h) fun _ _ h => waitBusy_staysRefused _ _ _ h

theorem exchange_staysRefused (send : List Byte) (h : s.refused = some r) : (exchange send s).StaysRefused r :=
  Run.Sat.andThen (waitBusy_staysRefused _ _ _ h) fun _ _ h =>
    Run.Sat.andThen
      (Run.Sat.andThen (assertSelect_staysRefused _ h) fun _ t h =>
        Run.Sat.andThen (sendBytes_staysRefused (s := t.enter .xfer) _ h) fun _ _ h => finishFrame_staysRefused _ _ h)
      fun _ _ h => h

theorem sendCommand_staysRefused (i : Instr) (h : s.refused = some r) : (sendCommand i s).StaysRefused r := by
  cases hp : paramError s.params i with
  | some kind =>
    rw [sendCommand_rejected hp]
    exact h
  | none =>
    rw [sendCommand, checkOperands_of_accepted hp]
    exact exchange_staysRefused (s := dcBegin i s) _ h

theorem finish_staysRefused (c : Completion) (h : s.refused = some r) : (finish c s).StaysRefused r :=
  Run.Sat.andThen (sendCommand_staysRefused _ h) fun _ _ h => h

/-- The end of the engine's operation answers the refusal. -/
theorem answer_finishEngine_staysRefused {m : Run Completion} (h : m.StaysRefused r) :
    answer .reference (finishEngine m) = .refused r := by
  match m, h with
  | .ok c t, h => exact answer_refused h
  | .stop (.outcome o) t, h =>
    refine answer_refused (t := (leaveStage t).complete ⟨o, .none⟩) ?_
    unfold leaveStage
    split <;> exact h
  | .stop .reset t, h => exact answer_refused h

end

section

variable {s t : State} {past : List Instr} {p : ProtocolRequest}

/-- The fetch of a response that FE_REF does not hold is refused (R64). -/
theorem engineBack_refused (h : Ran s t past) {n : Nat} (h1 : 1 ≤ n) (h2 : n ≤ 508) (hk : s.fe.kind = .reference)
    (hf : (s.ran past).rxbuf.length < n) : (engineBack p n t).StaysRefused (.frontEndRefusesReadData n) := by
  have hp : paramError t.params (.readData n) = none := (readError_none n).2 ((readLengthOk_iff n).2 ⟨h1, h2⟩)
  have hr : t.fe.refusesCommand t.params (.readData n) = some (.frontEndRefusesReadData n) := by
    rw [FrontEnd.refusesCommand_reference (h.kind.trans hk) hp, h.store]
    exact if_pos hf
  refine Run.Sat.andThen (queryCommand_refused h.calm h.refused hp hr (decode_encode (wf_of_paramError_none hp))) fun _ _ hu =>
    finish_staysRefused _ hu

/-- A next state of ProtocolTransact is the one its commands lead to, with its completion record, or an operand check has stopped
it. -/
theorem completion_of_opProtocolTransact (h : s.Calm) (ht : opProtocolTransact p s = .next t) :
    (∃ u, t = u.complete (s.record p) ∧ Ran s u (s.commands p)) ∨
      ∃ kind, t.completion = some ⟨.paramError kind, .none⟩ := by
  rw [opProtocolTransact] at ht
  by_cases hf : s.holdsFetch p
  · have hran := engine_ran h hf
    rw [eq_of_answer_next ht]
    match engine p s.accept, hran with
    | .ok c u, hran =>
      obtain ⟨rfl, hu⟩ := hran
      exact .inl ⟨u, rfl, hu⟩
    | .stop why u, hran =>
      obtain ⟨⟨kind, rfl⟩, -⟩ := hran
      exact .inr ⟨kind, rfl⟩
  · simp only [State.holdsFetch, not_forall, Nat.not_le] at hf
    obtain ⟨n, hn, hk, hshort⟩ := hf
    obtain ⟨h1, h2⟩ := State.front_inr hn
    have hfront := engineFront_ran (p := p) h
    cases he : engineFront p s.accept with
    | ok v u =>
      rw [he] at hfront
      obtain ⟨rfl, hu⟩ := hfront
      have hrun : engine p s.accept = engineBack p n u := by rw [engine, he, Run.ok_andThen, hn]
      rw [hrun, hk, answer_finishEngine_staysRefused (engineBack_refused hu h1 h2 hk hshort)] at ht
      cases ht
    | stop why u =>
      rw [he] at hfront
      obtain ⟨⟨kind, rfl⟩, -⟩ := hfront
      rw [eq_of_answer_next ht, engine, he]
      exact .inr ⟨kind, rfl⟩

end

end Sys2Proof.Machine
end

section
/-! SUPPORT. The traffic of ProtocolTransact, computed from its commands (R200, R221), and the transmit-ready check (R206). -/

namespace Sys2Proof.Machine

/-! ## Before SendData -/

theorem masked_of_mem_crcCommand {mask : Word} {a : Byte} (ha : a ∈ [0x00, 0x12, 0x19]) {c : CrcControl} {i : Instr}
    (h : i ∈ crcCommand mask a c) : Masked i := by
  cases c with
  | on => exact List.mem_singleton.1 h ▸ .or _ ha
  | off => exact List.mem_singleton.1 h ▸ .and _ ha
  | keep => cases h

theorem masked_of_mem_cycleCommands {p : Params} {i : Instr} (h : i ∈ cycleCommands p) : Masked i := by
  simp only [cycleCommands, List.mem_cons, List.not_mem_nil, or_false] at h
  rcases h with rfl | rfl
  · exact .or _ (by decide)
  · exact .and _ (by decide)

theorem State.masked_of_mem_beforeCheck {s : State} {p : ProtocolRequest} {i : Instr} (h : i ∈ s.beforeCheck p) : Masked i := by
  simp only [State.beforeCheck, List.mem_append] at h
  rcases h with h | h | h
  · split at h
    · exact masked_of_mem_cycleCommands h
    · cases h
  · exact masked_of_mem_crcCommand (by decide) h
  · exact masked_of_mem_crcCommand (by decide) h

theorem Masked.readLen {i : Instr} (h : Masked i) : (encode i).readLen = 0 := by
  cases h <;> rfl

section

variable (s : State) (p : ProtocolRequest)

/-- Masked writes return nothing (R102). -/
theorem State.captured_masked {l : List Instr} (h : ∀ i ∈ l, Masked i) : s.captured l = [] := by
  induction l with
  | nil => rfl
  | cons i l ih =>
    obtain ⟨hi, hl⟩ := List.forall_mem_cons.1 h
    rw [State.captured, ih hl, FeStore.answer_eq_nil hi.readLen]
    rfl

@[simp] theorem framesSent_crcCommand (mask : Word) (a : Byte) (c : CrcControl) :
    framesSent (crcCommand mask a c) = crcFrame a mask c := by
  cases c <;> rfl

@[simp] theorem frameCount_crcCommand (mask : Word) (a : Byte) (c : CrcControl) :
    frameCount (crcCommand mask a c) = if c = .keep then 0 else 1 := by
  cases c <;> rfl

theorem framesSent_cycleCommands (q : Params) : framesSent (cycleCommands q) =
    0x02 :: 0x00 :: le32 (~~~q.cmdMask) ++ 0x01 :: 0x00 :: le32 q.cmdTransceive := rfl

theorem State.framesSent_beforeSend : framesSent (s.beforeSend p) = bytesBeforeSend s p := by
  cases hc : p.transceiveCycle <;> cases hr : s.params.rigorCheckWaitTransmit <;>
    simp [State.beforeSend, State.beforeCheck, bytesBeforeSend, framesSent_append, framesSent_cycleCommands, framesSent, encode,
      hc, hr]

theorem State.frameCount_beforeSend : frameCount (s.beforeSend p) = framesBeforeSend s p := by
  cases hc : p.transceiveCycle <;> cases hr : s.params.rigorCheckWaitTransmit <;>
    simp [State.beforeSend, State.beforeCheck, framesBeforeSend, frameCount_append, frameCount, cycleCommands, encode, hc, hr]

theorem State.captured_beforeSend :
    s.captured (s.beforeSend p) = readBeforeSend s p (s.shows (s.beforeCheck p) 0x1D) := by
  have hsilent := s.captured_masked fun _ => s.masked_of_mem_beforeCheck (p := p)
  unfold State.beforeSend readBeforeSend
  split
  · rw [List.singleton_append, State.captured, hsilent]
    rfl
  · exact hsilent

end

/-! ## The transmit-ready check -/

section

variable {s t : State} {p : ProtocolRequest} {n : BitVec 3}

theorem State.notReady_eq_some : s.notReady p = some n ↔ p.transceiveCycle = true ∧ s.params.rigorCheckWaitTransmit = true ∧
    n ≠ 1 ∧ tsField s.params.tsShift (s.shows (s.beforeCheck p) 0x1D) = n := by
  unfold State.notReady
  by_cases hc : (p.transceiveCycle && s.params.rigorCheckWaitTransmit) = true
  · rw [if_pos hc]
    rw [Bool.and_eq_true] at hc
    dsimp only
    split
    · next h1 => exact ⟨nofun, fun h => absurd (h.2.2.2.symm.trans h1) h.2.2.1⟩
    · next h1 => exact ⟨fun h => ⟨hc.1, hc.2, Option.some.inj h ▸ h1, Option.some.inj h⟩, fun h => congrArg some h.2.2.2⟩
  · rw [if_neg hc]
    exact ⟨nofun, fun h => absurd (Bool.and_eq_true_iff.2 ⟨h.1, h.2.1⟩) hc⟩

theorem State.front_notReady (h : s.notReady p = some n) :
    s.front p = (.inl (.preconditionViolation n), s.beforeSend p) := by
  simp [State.front, h]

theorem lengthVerdict_inl {m : Nat} {o : OpOutcome} (h : lengthVerdict m = .inl o) :
    o = .noCard ∨ o = .paramError .badReadLength := by
  unfold lengthVerdict at h
  split at h
  · cases h; exact .inl rfl
  · split at h
    · cases h; exact .inr rfl
    · cases h

/-- Past the check the engine leads to no PreconditionViolation. -/
theorem State.front_ready (h : s.notReady p = none) {o : OpOutcome} (ho : (s.front p).1 = .inl o) :
    o = .noCard ∨ o = .paramError .badReadLength := by
  simp only [State.front, h] at ho
  split at ho
  · exact lengthVerdict_inl ho
  · cases ho; exact .inl rfl

/-- A classified response is Ok or TagError (R215). -/
theorem classifyResponse_outcome (resp : List Byte) :
    (classifyResponse resp).1 = .ok ∨ ∃ code, (classifyResponse resp).1 = .tagError code := by
  unfold classifyResponse
  dsimp only
  split
  · dsimp only
    split <;> exact .inr ⟨_, rfl⟩
  · exact .inl rfl

theorem ProtocolRequest.delivers_outcome (p : ProtocolRequest) (resp : List Byte) :
    (p.delivers resp).outcome ≠ .preconditionViolation n := by
  unfold ProtocolRequest.delivers
  split
  · rcases classifyResponse_outcome resp with h | ⟨code, h⟩ <;> rw [h] <;> nofun
  · nofun

theorem State.record_preconditionViolation {result : Result} (h : s.record p = ⟨.preconditionViolation n, result⟩) :
    s.notReady p = some n ∧ result = .none := by
  unfold State.record at h
  cases hn : s.notReady p with
  | some m =>
    rw [State.front_notReady hn] at h
    cases h
    exact ⟨rfl, rfl⟩
  | none =>
    split at h
    · next o ho => cases h; rcases State.front_ready hn ho with e | e <;> cases e
    · exact absurd (congrArg Completion.outcome h) (p.delivers_outcome _)

/-- What goes over the bus where the check does not find WaitTransmit (R206). -/
theorem Ran.traffic_notReady {u : State} (hu : Ran s u (s.commands p)) (h : s.notReady p = some n) (c : Completion) :
    Traffic s (u.complete c) (framesBeforeSend s p + 1) (bytesBeforeSend s p ++ 0x00 :: 0x03 :: le32 0x00004007)
      (le32 (s.shows (s.beforeCheck p) 0x1D)) := by
  obtain ⟨hc, hr, -, -⟩ := State.notReady_eq_some.1 h
  have ht : Traffic s (u.complete c) _ _ _ := hu.traffic
  simpa [State.commands, State.front_notReady h, frameCount, framesSent, State.captured, s.frameCount_beforeSend,
    s.framesSent_beforeSend, s.captured_beforeSend, clearFlags, encode, FeStore.answer, readBeforeSend, hc, hr, engineFlags] using ht

/-- A PreconditionViolation is delivered where the check has found the state it names, and nowhere else (R206). -/
theorem preconditionViolation_of_step {rest : List Request} {result : Result} (hc : s.Calm)
    (hr : s.requests = .protocolTransact p :: rest) (ht : step s = .next t)
    (hcomp : t.completion = some ⟨.preconditionViolation n, result⟩) :
    p.transceiveCycle = true ∧ s.params.rigorCheckWaitTransmit = true ∧ n ≠ 1 ∧ result = .none ∧ t.xcvr.isIdle = true ∧
      ∃ v, tsField s.params.tsShift v = n ∧
        Traffic s t (framesBeforeSend s p + 1) (bytesBeforeSend s p ++ 0x00 :: 0x03 :: le32 0x00004007) (le32 v) := by
  cases hb : s.xcvr.xcBusy with
  | true => simp [step, hb] at ht
  | false =>
    rw [step_of_idle hb hr] at ht
    rcases completion_of_opProtocolTransact (s := { s with requests := rest }) { hc with } ht with ⟨u, rfl, hu⟩ | ⟨kind, hk⟩
    · obtain ⟨hn, hresult⟩ := State.record_preconditionViolation (Option.some.inj hcomp)
      obtain ⟨hcycle, hrigor, hne, hts⟩ := State.notReady_eq_some.1 hn
      exact ⟨hcycle, hrigor, hne, hresult, rfl, _, hts, hu.traffic_notReady hn _⟩
    · rw [hk] at hcomp
      cases hcomp

end

end Sys2Proof.Machine
end

section
/-! SUPPORT. The wait for the start-of-frame flag (R208) with a front-end whose own actions set flags and do nothing else: what the
polls show, where the wait ends, and the traffic of an operation that has sent SendData (R221). -/

namespace Sys2Proof.Machine

/-- So many polls of IRQ_STATUS after these commands. -/
def polled : Nat → List Instr → List Instr
  | 0, past => past
  | k + 1, past => polled k (.readRegister 0x02 :: past)

/-- The commands up to a poll of this number, the newest first. -/
def State.throughPolls (s : State) (p : ProtocolRequest) (k : Nat) : List Instr :=
  polled k (s.sent p)

theorem framesSent_polled (k : Nat) : ∀ past, framesSent (polled k past) =
    framesSent past ++ (List.replicate k [0x04, 0x02]).flatten := by
  induction k with
  | zero => exact fun past => (List.append_nil _).symm
  | succ k ih =>
    intro past
    rw [polled, ih, framesSent, List.append_assoc, List.replicate_succ]
    rfl

theorem frameCount_polled (k : Nat) : ∀ past, frameCount (polled k past) = frameCount past + 2 * k := by
  induction k with
  | zero => exact fun past => rfl
  | succ k ih =>
    intro past
    have hread : frameCount (.readRegister 0x02 :: past) = frameCount past + 2 := rfl
    rw [polled, ih, hread]
    omega

theorem length_polled (k : Nat) : ∀ past, (polled k past).length = past.length + k := by
  induction k with
  | zero => exact fun past => rfl
  | succ k ih =>
    intro past
    rw [polled, ih, List.length_cons]
    omega

section

variable {s t u : State} {past : List Instr} {p : ProtocolRequest}

/-! ## What the polls show -/

/-- A read of a register that is not IRQ_CLEAR leaves the store as the command met it (R82). -/
theorem State.ran_read {a : Byte} (ha : a ≠ 0x03) (past : List Instr) : s.ran (.readRegister a :: past) = s.met past :=
  if_neg ha

/-- A poll after an action that sets flags shows them beside those before. -/
theorem State.met_flags {w : Word} (h : s.act past.length = FeAct.flags w) : ∃ on, s.met past =
    { s.ran past with irqStatus := (s.ran past).irqStatus ||| w, rfOn := on } := by
  rw [State.met, h]
  exact ⟨_, rfl⟩

/-- The flags a poll leaves are those it shows. -/
theorem State.ran_poll_flags {w : Word} (h : s.act past.length = FeAct.flags w) :
    (s.ran (.readRegister 0x02 :: past)).irqStatus = (s.ran past).irqStatus ||| w := by
  obtain ⟨on, hmet⟩ := State.met_flags h
  rw [State.ran_read (by decide), hmet]

theorem State.shows_flags {w : Word} (h : s.act past.length = FeAct.flags w) :
    s.shows past 0x02 = (s.ran past).irqStatus ||| w := by
  obtain ⟨on, hmet⟩ := State.met_flags h
  rw [State.shows, hmet]
  rfl

theorem State.awaited_succ_of_set {w : Word} (h : s.act past.length = FeAct.flags w)
    (hb : ((s.ran past).irqStatus ||| w).getLsbD 14 = true) (left : Nat) :
    s.awaited (left + 1) past = (true, .readRegister 0x02 :: past) := by
  rw [State.awaited, State.shows_flags h]
  exact if_pos hb

theorem State.awaited_succ_of_clear {w : Word} (h : s.act past.length = FeAct.flags w)
    (hb : ((s.ran past).irqStatus ||| w).getLsbD 14 = false) (left : Nat) :
    s.awaited (left + 1) past = s.awaited left (.readRegister 0x02 :: past) := by
  rw [State.awaited, State.shows_flags h]
  exact if_neg (ne_true_of_eq_false hb)

/-- The polls move IRQ_STATUS and the field alone, and show the flags as they are set. -/
theorem State.ran_polled {l : List FeAct} (raised : List Word) : ∀ {past : List Instr},
    s.ActsFrom past.length (raised.map FeAct.flags ++ l) →
    (∃ on, s.ran (polled raised.length past) =
      { s.ran past with
        irqStatus := (flagsShown (s.ran past).irqStatus raised).getLastD (s.ran past).irqStatus, rfOn := on }) ∧
    s.captured (polled raised.length past) =
      s.captured past ++ ((flagsShown (s.ran past).irqStatus raised).map le32).flatten := by
  induction raised with
  | nil => exact fun _ => ⟨⟨_, rfl⟩, (List.append_nil _).symm⟩
  | cons w raised ih =>
    intro past h
    have hw : s.act past.length = FeAct.flags w := State.ActsFrom.head h
    obtain ⟨on, hmet⟩ := State.met_flags hw
    have hran : s.ran (.readRegister 0x02 :: past) = s.met past := State.ran_read (by decide) past
    have hcap : s.captured (.readRegister 0x02 :: past) = s.captured past ++ le32 ((s.ran past).irqStatus ||| w) := by
      rw [← State.shows_flags hw]
      rfl
    obtain ⟨⟨on', hend⟩, htraffic⟩ := ih (past := .readRegister 0x02 :: past) h.tail
    rw [hran, hmet] at hend htraffic
    rw [hcap] at htraffic
    refine ⟨⟨on', ?_⟩, ?_⟩
    · rw [List.length_cons, polled, hend, flagsShown]
      cases hshown : flagsShown ((s.ran past).irqStatus ||| w) raised <;> rfl
    · rw [List.length_cons, polled, htraffic, List.append_assoc]
      rfl

/-- The first poll that shows the flag ends the wait, the last of the window too (R208, R278). -/
theorem State.awaited_shown {l : List FeAct} (raised : List Word) : ∀ {past : List Instr} {left : Nat} {before : List Word}
    {last : Word}, s.ActsFrom past.length (raised.map FeAct.flags ++ l) →
    flagsShown (s.ran past).irqStatus raised = before ++ [last] → (∀ v ∈ before, v.getLsbD 14 = false) →
    last.getLsbD 14 = true → raised.length ≤ left → s.awaited left past = (true, polled raised.length past) := by
  induction raised with
  | nil =>
    intro _ _ before _ _ hs
    cases before <;> cases hs
  | cons w raised ih =>
    intro past left before last h hs hbefore hlast hleft
    obtain ⟨left, rfl⟩ := Nat.exists_eq_add_of_le' (Nat.one_le_of_lt hleft)
    have hw := State.ActsFrom.head h
    cases before with
    | nil =>
      obtain ⟨rfl, hnil⟩ := List.cons.inj hs
      obtain rfl : raised = [] := by
        cases raised with
        | nil => rfl
        | cons => cases hnil
      exact State.awaited_succ_of_set hw hlast left
    | cons v before =>
      obtain ⟨rfl, hrest⟩ := List.cons.inj hs
      obtain ⟨hv, hbefore⟩ := List.forall_mem_cons.1 hbefore
      rw [State.awaited_succ_of_clear hw hv]
      exact ih h.tail (by rw [State.ran_poll_flags hw]; exact hrest) hbefore hlast (Nat.le_of_succ_le_succ hleft)

/-- A window in which no poll shows it runs out (R208). -/
theorem State.awaited_unseen {l : List FeAct} (raised : List Word) : ∀ {past : List Instr},
    s.ActsFrom past.length (raised.map FeAct.flags ++ l) →
    (∀ v ∈ flagsShown (s.ran past).irqStatus raised, v.getLsbD 14 = false) →
    s.awaited raised.length past = (false, polled raised.length past) := by
  induction raised with
  | nil => exact fun _ _ => rfl
  | cons w raised ih =>
    intro past h hs
    have hw := State.ActsFrom.head h
    obtain ⟨hv, hs⟩ := List.forall_mem_cons.1 hs
    rw [List.length_cons, State.awaited_succ_of_clear hw hv]
    exact ih h.tail (by rw [State.ran_poll_flags hw]; exact hs)

/-! ## The front of an operation that has sent SendData -/

/-- The poll that shows the flag leads to the response length (R210). -/
theorem State.front_shown {raised before : List Word} {last : Word} (hn : s.notReady p = none)
    (ha : s.ActsFrom (s.sent p).length (raised.map FeAct.flags ++ []))
    (hs : flagsShown (s.ran (s.sent p)).irqStatus raised = before ++ [last]) (hbefore : ∀ v ∈ before, v.getLsbD 14 = false)
    (hlast : last.getLsbD 14 = true) (hN : raised.length ≤ s.params.nRespPolls) :
    s.front p = (lengthVerdict (lengthField (s.shows (s.throughPolls p raised.length) 0x13)).toNat,
      .readRegister 0x13 :: s.throughPolls p raised.length) := by
  have hw : s.waited p = (true, s.throughPolls p raised.length) := State.awaited_shown raised ha hs hbefore hlast hN
  simp [State.front, hn, hw]

/-- A window in which no poll shows it leads to NoCard (R209). -/
theorem State.front_unseen {raised : List Word} (hn : s.notReady p = none)
    (ha : s.ActsFrom (s.sent p).length (raised.map FeAct.flags ++ []))
    (hs : ∀ v ∈ flagsShown (s.ran (s.sent p)).irqStatus raised, v.getLsbD 14 = false) (hN : raised.length = s.params.nRespPolls) :
    s.front p = (.inl .noCard, s.throughPolls p raised.length) := by
  have hw : s.waited p = (false, s.throughPolls p raised.length) := by
    rw [State.waited, ← hN]
    exact State.awaited_unseen raised ha hs
  simp [State.front, hn, hw]

/-- The frames and the bytes of such an operation (R200, R221), where these commands come after the polls. -/
theorem Ran.traffic_sent {k : Nat} {after : List Instr}
    (hu : Ran s u (clearFlags :: (after ++ s.throughPolls p k))) (c : Completion) :
    Traffic s (u.complete c) (framesBeforeSend s p + 1 + 2 * k + (frameCount after + 1)) (engineSends s p k (framesSent after))
      (s.captured (after ++ s.throughPolls p k)) := by
  have hn : frameCount (clearFlags :: (after ++ s.throughPolls p k)) =
      framesBeforeSend s p + 1 + 2 * k + (frameCount after + 1) := by
    have hclear : frameCount (clearFlags :: (after ++ s.throughPolls p k)) = frameCount (after ++ s.throughPolls p k) + 1 := rfl
    have hsend : frameCount (s.sent p) = frameCount (s.beforeSend p) + 1 := rfl
    rw [hclear, frameCount_append, State.throughPolls, frameCount_polled, hsend, s.frameCount_beforeSend]
    omega
  have hb : framesSent (clearFlags :: (after ++ s.throughPolls p k)) = engineSends s p k (framesSent after) := by
    rw [framesSent, framesSent_append, State.throughPolls, framesSent_polled, State.sent, framesSent, s.framesSent_beforeSend]
    rfl
  have hi : s.captured (clearFlags :: (after ++ s.throughPolls p k)) = s.captured (after ++ s.throughPolls p k) :=
    List.append_nil _
  have ht : Traffic s (u.complete c) _ _ _ := hu.traffic
  rwa [hn, hb, hi] at ht

/-- The reads after the wait, of RX_STATUS and of the response. -/
inductive Fetches : Instr → Prop where
  | length : Fetches (.readRegister 0x13)
  | response (n : Nat) : Fetches (.readData n)

/-- The frames and the bytes of both (R210, R213). -/
theorem frameCount_fetch {n : Nat} (h : 1 ≤ n) : frameCount [.readData n, .readRegister 0x13] = 4 := by
  have hn : (encode (.readData n)).readLen ≠ 0 := Nat.one_le_iff_ne_zero.1 h
  rw [frameCount, if_neg hn]
  rfl

theorem State.captured_fetch (s : State) (n : Nat) (past : List Instr) :
    s.captured ([.readData n, .readRegister 0x13] ++ past) = s.captured past ++ le32 (s.shows past 0x13) ++
      (s.met (.readRegister 0x13 :: past)).answerReadData s.fe.kind n := rfl

theorem fetches_fetch (n : Nat) : ∀ i ∈ [Instr.readData n, .readRegister 0x13], Fetches i := by
  simpa using ⟨.response n, .length⟩

/-- RF_STATUS as the transmit-ready check reads it is RF_STATUS as SendData finds it. -/
theorem State.captured_beforeSend_eq (s : State) (p : ProtocolRequest) : s.captured (s.beforeSend p) =
    readBeforeSend s p ((s.ran (s.beforeSend p)).rfStatus s.params s.fe.kind) := by
  rw [s.captured_beforeSend]
  unfold State.beforeSend readBeforeSend
  split
  · rw [List.singleton_append, State.ran_read (by decide)]
    rfl
  · rfl

end

end Sys2Proof.Machine
end

section
/-! SUPPORT. ProtocolTransact with a front-end that is not FE_REF and whose own actions are given (log entry 7): the transmit-ready
check that does not find WaitTransmit (R206), and the wait for the start-of-frame flag with what the response length leads to
(R208 to R213). -/

namespace Sys2Proof.Machine

/-! ## The commands before the check -/

/-- What masked writes leave in such a front-end: the flags, the bits of RF_STATUS beside the state, and the buffers. -/
structure Reconfigured (f g : FeStore) : Prop where
  irqStatus : g.irqStatus = f.irqStatus
  rxStatus : g.rxStatus = f.rxStatus
  rfStatusRest : g.rfStatusRest = f.rfStatusRest
  txbuf : g.txbuf = f.txbuf
  txValidBits : g.txValidBits = f.txValidBits
  rxbuf : g.rxbuf = f.rxbuf

theorem Reconfigured.trans {f g h : FeStore} (hg : Reconfigured f g) (hh : Reconfigured g h) : Reconfigured f h :=
  ⟨hh.irqStatus.trans hg.irqStatus, hh.rxStatus.trans hg.rxStatus, hh.rfStatusRest.trans hg.rfStatusRest,
    hh.txbuf.trans hg.txbuf, hh.txValidBits.trans hg.txValidBits, hh.rxbuf.trans hg.rxbuf⟩

theorem reconfigured_written (p : Params) (a : Byte) (new : Word) (f : FeStore) :
    Reconfigured f (f.written p .unconstrained a new) := by
  obtain ⟨ts, draws, he⟩ := f.written_eq (p := p) (kind := .unconstrained) (addr := a) new nofun
  obtain ⟨-, hirq, hrx, hrest, -, htxbuf, hbits, hrxbuf, -⟩ := f.setReg_rest a new
  rw [he]
  exact ⟨hirq, hrx, hrest, htxbuf, hbits, hrxbuf⟩

theorem Masked.reconfigured {i : Instr} (h : Masked i) (p : Params) (f : FeStore) :
    Reconfigured f (f.react p .unconstrained i) := by
  cases h with
  | or m ha =>
    show Reconfigured f (f.reactOrMask p .unconstrained _ m)
    rw [FeStore.reactOrMask_plain _ _ (isPlainReg_of_masked ha).1]
    exact reconfigured_written _ _ _ _
  | and m ha =>
    show Reconfigured f (f.reactAndMask p .unconstrained _ m)
    rw [FeStore.reactAndMask_plain _ _ (isPlainReg_of_masked ha).1]
    exact reconfigured_written _ _ _ _

section

variable {s t u : State} {p : ProtocolRequest} {n : BitVec 3} {l : List FeAct}

theorem State.reconfigured_ran (hk : s.fe.kind = .unconstrained) {past : List Instr} (hp : ∀ i ∈ past, Masked i)
    (ha : ∀ j < past.length, s.act j = FeAct.nothing) : Reconfigured s.fe.store (s.ran past) := by
  induction past with
  | nil => exact ⟨rfl, rfl, rfl, rfl, rfl, rfl⟩
  | cons i past ih =>
    obtain ⟨hi, hp⟩ := List.forall_mem_cons.1 hp
    have hbefore := ih hp fun j hj => ha j (Nat.lt_succ_of_lt hj)
    rw [State.ran_cons, State.met_of_idle (ha past.length (Nat.lt_succ_self _)), hk]
    exact hbefore.trans (hi.reconfigured _ _)

theorem frameCount_masked {l : List Instr} (h : ∀ i ∈ l, Masked i) : frameCount l = l.length := by
  induction l with
  | nil => rfl
  | cons i l ih =>
    obtain ⟨hi, hl⟩ := List.forall_mem_cons.1 h
    rw [frameCount, ih hl, if_pos hi.readLen, List.length_cons]

/-- Each command before the check takes one frame, and the check two. -/
theorem State.framesBeforeSend_eq (s : State) (p : ProtocolRequest) : framesBeforeSend s p =
    (s.beforeCheck p).length + if p.transceiveCycle && s.params.rigorCheckWaitTransmit then 2 else 0 := by
  have hcount := frameCount_masked fun _ => s.masked_of_mem_beforeCheck (p := p)
  rw [← s.frameCount_beforeSend, State.beforeSend, frameCount_append, hcount]
  split <;> rfl

/-- A front-end that does nothing before the check. -/
theorem State.reconfigured_beforeCheck (hk : s.fe.kind = .unconstrained)
    (ha : s.ActsFrom 0 (List.replicate (s.beforeCheck p).length FeAct.nothing ++ l)) :
    Reconfigured s.fe.store (s.ran (s.beforeCheck p)) := by
  refine State.reconfigured_ran hk (fun _ => s.masked_of_mem_beforeCheck) fun j hj => ?_
  rw [← ha.idle hj, Nat.zero_add]

/-- What the check finds in a front-end whose own action has moved its state. -/
theorem State.met_beforeCheck (ha : s.ActsFrom 0 (List.replicate (s.beforeCheck p).length FeAct.nothing ++ FeAct.state n :: l)) :
    s.met (s.beforeCheck p) = { s.ran (s.beforeCheck p) with ts := n } ∧ s.ActsFrom ((s.beforeCheck p).length + 1) l := by
  have hcheck := ha.drop
  rw [Nat.zero_add, List.length_replicate] at hcheck
  exact ⟨by rw [State.met, hcheck.head, FeStore.acted_state], hcheck.tail⟩

theorem State.actsBeforeCheck_eq (hc : (p.transceiveCycle && s.params.rigorCheckWaitTransmit) = true) (n : BitVec 3) :
    actsBeforeCheck s p n = List.replicate (s.beforeCheck p).length FeAct.nothing ++ [FeAct.state n] := by
  rw [actsBeforeCheck, s.framesBeforeSend_eq, if_pos hc, Nat.add_sub_cancel]

/-! ## The check finds another state -/

/-- The clear of the flags, the last command (R216). -/
theorem State.ran_clearFlags {past : List Instr} (ha : s.act past.length = FeAct.nothing) : s.ran (clearFlags :: past) =
    { s.ran past with irqStatus := (s.ran past).irqStatus &&& ~~~engineFlags } := by
  rw [State.ran_cons, State.met_of_idle ha]
  rfl

theorem State.holdsFetch_unconstrained (hk : s.fe.kind = .unconstrained) : s.holdsFetch p := fun _ _ hr => by
  rw [hk] at hr
  cases hr

/-- An own action that leaves another state than WaitTransmit for the check ends the operation with it (R206). -/
theorem opProtocolTransact_notReady (hc : s.Calm) (hk : s.fe.kind = .unconstrained) (hok : s.engineOk p)
    (hw : s.params.wf = true) (hcheck : (p.transceiveCycle && s.params.rigorCheckWaitTransmit) = true)
    (hacts : s.fe.inputs.acts = actsBeforeCheck s p n) (hn : n ≠ 1) :
    ∃ t, opProtocolTransact p s = .next t ∧ t.completion = some ⟨.preconditionViolation n, .none⟩ ∧
      t.reg 0x02 = s.reg 0x02 &&& ~~~0x00004007 ∧ BuffersKept s t ∧ t.xcvr.isIdle = true ∧ t.params = s.params ∧
      t.requests = s.requests ∧ t.fe.store.ts = n ∧
      Traffic s t (framesBeforeSend s p + 1) (bytesBeforeSend s p ++ 0x00 :: 0x03 :: le32 0x00004007)
        (le32 (t.reg 0x1D)) := by
  have hall : s.ActsAs (List.replicate (s.beforeCheck p).length FeAct.nothing ++ [FeAct.state n]) :=
    ⟨0, by rw [hacts, State.actsBeforeCheck_eq hcheck]; exact List.append_nil _⟩
  have hfrom := hall.actsFrom hk
  have hbefore := State.reconfigured_beforeCheck hk hfrom
  obtain ⟨hmet, hlater⟩ := State.met_beforeCheck hfrom
  have hshows : tsField s.params.tsShift (s.shows (s.beforeCheck p) 0x1D) = n := by
    rw [State.shows, hmet]
    exact FeStore.tsField_rfStatus (Params.tsShift_le_of_wf hw) _ _
  obtain ⟨hcycle, hrigor⟩ := Bool.and_eq_true_iff.1 hcheck
  have hnot : s.notReady p = some n := State.notReady_eq_some.2 ⟨hcycle, hrigor, hn, hshows⟩
  have hfront := State.front_notReady hnot
  obtain ⟨u, hu, hran⟩ := opProtocolTransact_ran hc hok (State.holdsFetch_unconstrained hk)
  have hsend : s.beforeSend p = .readRegister 0x1D :: s.beforeCheck p := by
    rw [State.beforeSend, if_pos hcheck]
    rfl
  have hstore : u.fe.store = { s.met (s.beforeCheck p) with
      irqStatus := (s.met (s.beforeCheck p)).irqStatus &&& ~~~engineFlags } := by
    have hcommands : s.commands p = clearFlags :: .readRegister 0x1D :: s.beforeCheck p := by
      rw [State.commands, hfront, ← hsend]
    rw [hran.store, hcommands, State.ran_clearFlags (hlater 0), State.ran_read (by decide)]
  have hrecord : s.record p = ⟨.preconditionViolation n, .none⟩ := by rw [State.record, hfront]
  rw [hmet] at hstore
  refine ⟨_, hu, by rw [hrecord]; rfl, ?_, ?_, rfl, hran.params, hran.requests, by rw [State.complete_fe, hstore], ?_⟩
  · show u.fe.store.irqStatus = _
    rw [hstore]
    exact congrArg (· &&& ~~~engineFlags) hbefore.irqStatus
  · constructor <;> rw [State.complete_fe, hstore]
    · exact hbefore.txbuf
    · exact hbefore.txValidBits
    · exact hbefore.rxbuf
  · have hread : (u.complete (s.record p)).reg 0x1D = s.shows (s.beforeCheck p) 0x1D := by
      rw [hran.reg, ← hran.store, hstore, State.shows, hmet]
      rfl
    rw [hread]
    exact hran.traffic_notReady hnot _

/-! ## The wait -/

/-- A front-end that is in WaitTransmit where the check reads its state (R206, log entry 34). -/
theorem State.ready_of_acts (hk : s.fe.kind = .unconstrained) (hw : s.params.wf = true)
    (ha : s.ActsFrom 0 (actsBeforeSend s p ++ l)) :
    s.notReady p = none ∧ Reconfigured s.fe.store (s.ran (s.beforeSend p)) ∧ s.ActsFrom (s.beforeSend p).length l := by
  by_cases hcheck : (p.transceiveCycle && s.params.rigorCheckWaitTransmit) = true
  · rw [actsBeforeSend, if_pos hcheck, State.actsBeforeCheck_eq hcheck, List.append_assoc, List.singleton_append] at ha
    have hbefore := State.reconfigured_beforeCheck hk ha
    obtain ⟨hmet, hlater⟩ := State.met_beforeCheck ha
    have hshows : tsField s.params.tsShift (s.shows (s.beforeCheck p) 0x1D) = 1 := by
      rw [State.shows, hmet]
      exact FeStore.tsField_rfStatus (Params.tsShift_le_of_wf hw) _ _
    refine ⟨by rw [State.notReady, if_pos hcheck, hshows]; rfl, ?_⟩
    rw [State.beforeSend, if_pos hcheck, List.singleton_append, State.ran_read (by decide), hmet]
    exact ⟨{ hbefore with }, hlater⟩
  · rw [actsBeforeSend, if_neg hcheck, s.framesBeforeSend_eq, if_neg hcheck, Nat.add_zero] at ha
    refine ⟨by rw [State.notReady, if_neg hcheck], ?_⟩
    rw [State.beforeSend, if_neg hcheck, List.nil_append]
    refine ⟨State.reconfigured_beforeCheck hk ha, ?_⟩
    have hlater := ha.drop
    rwa [Nat.zero_add, List.length_replicate] at hlater

/-- SendData to such a front-end moves the transmit buffer alone (R170, U3). -/
theorem State.ran_sent (hk : s.fe.kind = .unconstrained) (ha : s.act (s.beforeSend p).length = FeAct.nothing) :
    ∃ txbuf txValidBits draws, s.ran (s.sent p) =
      { s.ran (s.beforeSend p) with txbuf := txbuf, txValidBits := txValidBits, draws := draws } := by
  obtain ⟨txbuf, txValidBits, draws, he, -⟩ :=
    (s.ran (s.beforeSend p)).reactSendData_unconstrained p.req p.validBits
  refine ⟨txbuf, txValidBits, draws, ?_⟩
  rw [State.sent, State.ran_cons, State.met_of_idle ha, hk]
  exact he

/-- The front-end before each poll and after the last, where it acts so (R206, R208). -/
structure ActsUntilPoll (s : State) (p : ProtocolRequest) (raised : List Word) : Prop where
  ready : s.notReady p = none
  acts : s.ActsFrom (s.sent p).length (raised.map FeAct.flags ++ [])
  before : (s.ran (s.sent p)).irqStatus = s.reg 0x02
  done : s.ActsFrom (s.throughPolls p raised.length).length []
  irqStatus : (s.ran (s.throughPolls p raised.length)).irqStatus = (flagsShown (s.reg 0x02) raised).getLastD (s.reg 0x02)
  rxStatus : (s.ran (s.throughPolls p raised.length)).rxStatus = s.reg 0x13
  rxbuf : (s.ran (s.throughPolls p raised.length)).rxbuf = s.fe.store.rxbuf
  captured : s.captured (s.throughPolls p raised.length) =
    readBeforeSend s p ((s.ran (s.throughPolls p raised.length)).rfStatus s.params s.fe.kind) ++
      ((flagsShown (s.reg 0x02) raised).map le32).flatten

theorem State.ActsAs.untilPoll {raised : List Word} (hk : s.fe.kind = .unconstrained) (hw : s.params.wf = true)
    (ha : s.ActsAs (actsUntilPoll s p raised)) : ActsUntilPoll s p raised := by
  obtain ⟨hready, hbefore, hfrom⟩ := State.ready_of_acts hk hw (ha.actsFrom hk)
  obtain ⟨txbuf, txValidBits, draws, hsent⟩ := State.ran_sent hk hfrom.head
  have hacts : s.ActsFrom (s.sent p).length (raised.map FeAct.flags ++ []) := by
    rw [List.append_nil]
    exact hfrom.tail
  have hirq : (s.ran (s.sent p)).irqStatus = s.reg 0x02 := by
    rw [hsent]
    exact hbefore.irqStatus
  obtain ⟨⟨on, hran⟩, hcaptured⟩ := State.ran_polled raised hacts
  rw [← State.throughPolls, hirq, hsent] at hran
  rw [← State.throughPolls, hirq] at hcaptured
  have hsilent : s.captured (s.sent p) = s.captured (s.beforeSend p) := List.append_nil _
  exact
    { ready := hready
      acts := hacts
      before := hirq
      done := by
        have hdone := hacts.drop
        rwa [List.length_map, ← length_polled] at hdone
      irqStatus := by rw [hran]
      rxStatus := by rw [hran]; exact hbefore.rxStatus
      rxbuf := by rw [hran]; exact hbefore.rxbuf
      captured := by
        rw [hcaptured, hsilent, s.captured_beforeSend_eq, hran]
        rfl }

/-! ## After the wait -/

/-- They move the receive buffer alone (U7). -/
theorem State.ran_fetched (hk : s.fe.kind = .unconstrained) {past : List Instr} (ha : s.ActsFrom past.length [])
    {after : List Instr} (hf : ∀ i ∈ after, Fetches i) :
    ∃ rxbuf draws, s.ran (after ++ past) = { s.ran past with rxbuf := rxbuf, draws := draws } := by
  induction after with
  | nil => exact ⟨_, _, rfl⟩
  | cons i after ih =>
    obtain ⟨hi, hf⟩ := List.forall_mem_cons.1 hf
    obtain ⟨rxbuf, draws, he⟩ := ih hf
    rw [List.cons_append, State.ran_cons, State.met_of_idle ha.done, hk, he]
    cases hi with
    | length => exact ⟨_, _, rfl⟩
    | response n => exact ⟨_, _, rfl⟩

/-- The end of an operation that has sent SendData to such a front-end. -/
theorem ActsUntilPoll.ended {raised : List Word} {after : List Instr} (h : ActsUntilPoll s p raised)
    (hk : s.fe.kind = .unconstrained) (hf : ∀ i ∈ after, Fetches i)
    (hu : Ran s u (clearFlags :: (after ++ s.throughPolls p raised.length))) (c : Completion) {seen : Word}
    (hseen : (flagsShown (s.reg 0x02) raised).getLastD (s.reg 0x02) = seen) {inp : List Byte}
    (hinp : s.captured (after ++ s.throughPolls p raised.length) = s.captured (s.throughPolls p raised.length) ++ inp) :
    EngineEnded s (u.complete c) seen s.requests (framesBeforeSend s p + 1 + 2 * raised.length + (frameCount after + 1))
      (engineSends s p raised.length (framesSent after))
      (readBeforeSend s p ((u.complete c).reg 0x1D) ++ ((flagsShown (s.reg 0x02) raised).map le32).flatten ++ inp) := by
  obtain ⟨rxbuf, draws, he⟩ := State.ran_fetched hk h.done hf
  have hstore := State.ran_clearFlags (h.done.done (after := after))
  rw [he] at hstore
  have hrf : (u.complete c).reg 0x1D = (s.ran (s.throughPolls p raised.length)).rfStatus s.params s.fe.kind := by
    rw [hu.reg, hstore]
    rfl
  exact
    { flags := by
        rw [hu.reg, hstore, ← hseen, ← h.irqStatus]
        rfl
      idle := rfl
      params := hu.params
      requests := hu.requests
      traffic := by
        rw [hrf, ← h.captured, ← hinp]
        exact hu.traffic_sent c }

end

end Sys2Proof.Machine
end

section
/-! SUPPORT. The statements about ProtocolTransact with a front-end that is not FE_REF, its parameter check (R201), and the map of a
tag's error byte (R214). -/

namespace Sys2Proof.Machine

section

variable {s : State} {p : ProtocolRequest} {raised before : List Word} {last : Word}

/-! ## Where the wait leads -/

/-- What a register of flags shows last, and the bytes of its reads, where the last value is known. -/
theorem flagsShown_concat {v : Word} (hs : flagsShown v raised = before ++ [last]) :
    (flagsShown v raised).getLastD v = last ∧
      ((flagsShown v raised).map le32).flatten = (before.map le32).flatten ++ le32 last := by
  rw [hs]
  simp

/-- RX_STATUS and the receive buffer stand as they were when the length is read. -/
theorem ActsUntilPoll.shows_length (h : ActsUntilPoll s p raised) :
    s.shows (s.throughPolls p raised.length) 0x13 = s.reg 0x13 := by
  rw [State.shows, State.met_of_idle (h.done 0)]
  exact h.rxStatus

/-- The front of an operation whose wait ends with the last of these flags. -/
theorem ActsUntilPoll.front (h : ActsUntilPoll s p raised) (hs : flagsShown (s.reg 0x02) raised = before ++ [last])
    (hbefore : ∀ v ∈ before, v.getLsbD 14 = false) (hlast : last.getLsbD 14 = true)
    (hN : raised.length ≤ s.params.nRespPolls) :
    s.front p = (lengthVerdict (lengthField (s.reg 0x13)).toNat, .readRegister 0x13 :: s.throughPolls p raised.length) := by
  rw [← h.shows_length]
  exact State.front_shown h.ready h.acts (by rw [h.before]; exact hs) hbefore hlast hN

/-- A window without the flag ends NoCard (R208, R209). -/
theorem ActsUntilPoll.noCard (h : ActsUntilPoll s p raised) (hc : s.Calm) (hk : s.fe.kind = .unconstrained)
    (hok : s.engineOk p) (hN : raised.length = s.params.nRespPolls)
    (hs : ∀ v ∈ flagsShown (s.reg 0x02) raised, v.getLsbD 14 = false) :
    ∃ t, opProtocolTransact p s = .next t ∧ t.completion = some ⟨.noCard, .none⟩ ∧
      EngineEnded s t ((flagsShown (s.reg 0x02) raised).getLastD (s.reg 0x02)) s.requests
        (framesBeforeSend s p + 1 + 2 * s.params.nRespPolls + 1) (engineSends s p s.params.nRespPolls [])
        (readBeforeSend s p (t.reg 0x1D) ++ ((flagsShown (s.reg 0x02) raised).map le32).flatten) := by
  have hfront := State.front_unseen h.ready h.acts (by rw [h.before]; exact hs) hN
  obtain ⟨u, hu, hran⟩ := opProtocolTransact_ran hc hok (State.holdsFetch_unconstrained hk)
  simp only [State.record, State.commands, hfront] at hu hran
  have hend := h.ended (after := []) hk nofun hran ⟨.noCard, .none⟩ rfl (inp := []) (List.append_nil _).symm
  rw [List.append_nil, hN] at hend
  exact ⟨_, hu, rfl, hend⟩

/-- A length that is no response's ends with its outcome, and nothing is fetched (R211, R212). -/
theorem ActsUntilPoll.badLength (h : ActsUntilPoll s p raised) (hc : s.Calm) (hk : s.fe.kind = .unconstrained)
    (hok : s.engineOk p) (hs : flagsShown (s.reg 0x02) raised = before ++ [last])
    (hbefore : ∀ v ∈ before, v.getLsbD 14 = false) (hlast : last.getLsbD 14 = true)
    (hN : raised.length ≤ s.params.nRespPolls) {o : OpOutcome} (ho : lengthVerdict (lengthField (s.reg 0x13)).toNat = .inl o) :
    ∃ t, opProtocolTransact p s = .next t ∧ t.completion = some ⟨o, .none⟩ ∧
      EngineEnded s t last s.requests (framesBeforeSend s p + 1 + 2 * raised.length + 3)
        (engineSends s p raised.length [0x04, 0x13])
        (readBeforeSend s p (t.reg 0x1D) ++ (before.map le32).flatten ++ le32 last ++ le32 (s.reg 0x13)) := by
  have hfront := h.front hs hbefore hlast hN
  rw [ho] at hfront
  obtain ⟨hlastD, hflags⟩ := flagsShown_concat hs
  obtain ⟨u, hu, hran⟩ := opProtocolTransact_ran hc hok (State.holdsFetch_unconstrained hk)
  simp only [State.record, State.commands, hfront] at hu hran
  have hend := h.ended (after := [.readRegister 0x13]) hk (fun _ hi => List.mem_singleton.1 hi ▸ .length) hran ⟨o, .none⟩ hlastD
    (inp := le32 (s.reg 0x13)) (by rw [← h.shows_length]; rfl)
  rw [hflags, ← List.append_assoc] at hend
  exact ⟨_, hu, rfl, hend⟩

/-- Every other length is fetched, and the response delivered (R213). -/
theorem ActsUntilPoll.fetched (h : ActsUntilPoll s p raised) (hc : s.Calm) (hk : s.fe.kind = .unconstrained)
    (hok : s.engineOk p) (hs : flagsShown (s.reg 0x02) raised = before ++ [last])
    (hbefore : ∀ v ∈ before, v.getLsbD 14 = false) (hlast : last.getLsbD 14 = true)
    (hN : raised.length ≤ s.params.nRespPolls) {n : Nat} (hlen : (lengthField (s.reg 0x13)).toNat = n)
    (hn : lengthVerdict n = .inr n) (hclass : p.classify = false) :
    ∃ t b, opProtocolTransact p s = .next t ∧ t.completion = some ⟨.ok, .response b none⟩ ∧ b.length = n ∧
      (∀ j (h : j < b.length) (h' : j < s.fe.store.rxbuf.length), b[j] = s.fe.store.rxbuf[j]) ∧
      EngineEnded s t last s.requests (framesBeforeSend s p + 1 + 2 * raised.length + 5)
        (engineSends s p raised.length [0x04, 0x13, 0x0A, 0x00])
        (readBeforeSend s p (t.reg 0x1D) ++ (before.map le32).flatten ++ le32 last ++ le32 (s.reg 0x13) ++ b) := by
  have hfront := h.front hs hbefore hlast hN
  rw [hlen, hn] at hfront
  obtain ⟨hlastD, hflags⟩ := flagsShown_concat hs
  obtain ⟨u, hu, hran⟩ := opProtocolTransact_ran hc hok (State.holdsFetch_unconstrained hk)
  simp only [State.record, State.commands, hfront, ProtocolRequest.delivers, hclass, Bool.false_eq_true, if_false] at hu hran
  have hread : s.met (.readRegister 0x13 :: s.throughPolls p raised.length) = s.ran (s.throughPolls p raised.length) := by
    have hidle := h.done.done (after := [.readRegister 0x13])
    exact (State.met_of_idle hidle).trans ((State.ran_read (by decide) _).trans (State.met_of_idle (h.done 0)))
  rw [hread] at hu
  have hend := h.ended hk (fetches_fetch n) hran
    ⟨.ok, .response ((s.ran (s.throughPolls p raised.length)).answerReadData s.fe.kind n) none⟩ hlastD
    (inp := le32 (s.reg 0x13) ++ (s.ran (s.throughPolls p raised.length)).answerReadData s.fe.kind n)
    (by rw [s.captured_fetch, h.shows_length, hread, List.append_assoc])
  rw [hflags, frameCount_fetch (lengthVerdict_inr hn).1, ← List.append_assoc, ← List.append_assoc] at hend
  refine ⟨_, _, hu, rfl, FeStore.answerReadData_length (by rw [hk]; nofun), fun j hj hj' => ?_, hend⟩
  have hlow : j < (lengthField (s.ran (s.throughPolls p raised.length)).rxStatus).toNat := by
    rw [h.rxStatus, hlen]
    rwa [FeStore.answerReadData_length (by rw [hk]; nofun)] at hj
  rw [FeStore.answerReadData_received hk hj (by rwa [h.rxbuf]) hlow]
  exact List.getElem_of_eq h.rxbuf _

end

/-! ## The length -/

theorem lengthField_toNat (w : Word) : (lengthField w).toNat = w.toNat % 512 := by
  simp [lengthField]

theorem lengthVerdict_noCard {n : Nat} (h : n = 511 ∨ n = 0) : lengthVerdict n = .inl .noCard := if_pos h

theorem lengthVerdict_badReadLength {n : Nat} (h : n = 509 ∨ n = 510) : lengthVerdict n = .inl (.paramError .badReadLength) := by
  rcases h with rfl | rfl <;> rfl

theorem lengthVerdict_fetch {n : Nat} (h1 : 1 ≤ n) (h2 : n ≤ 508) : lengthVerdict n = .inr n := by
  have hend : ¬ (n = Config.lenInvalid ∨ n = 0) := by
    rw [Config.lenInvalid]
    omega
  exact (if_neg hend).trans (if_neg (Nat.not_lt.2 h2))

/-! ## The statements -/

/-- A claim about the end of the engine's operation does not look at the records at the client port. -/
theorem EngineEnded.ofTaken {s t : State} {seen : Word} {taken rest : List Request} {frames : Nat} {out inp : List Byte}
    (h : EngineEnded { s with requests := taken } t seen rest frames out inp) : EngineEnded s t seen rest frames out inp :=
  { h with traffic := h.traffic }

/-- Settles O42: SendData finds the front-end ready, the polls show the flags as its actions set them, and the first that shows
bit 14, or the end of the window, decides. -/
theorem responseLengthDecides : Obligations.ResponseLengthDecides := by
  refine ⟨fun w => ⟨lengthVerdict_noCard, lengthVerdict_badReadLength, lengthVerdict_fetch, lengthField_toNat w⟩, ?_⟩
  intro s p rest raised hc hk hb hr hacc hw hd hacts
  have hc' : ({ s with requests := rest } : State).Calm := { hc with }
  have hpolls : ActsUntilPoll { s with requests := rest } p raised := State.ActsAs.untilPoll hk hw hacts
  have hok : ({ s with requests := rest } : State).engineOk p := ⟨hd, hacc⟩
  rw [step_of_idle hb hr]
  refine ⟨?_, fun hN hs => ?_⟩
  · rintro _ n before last rfl hN hs hbefore hlast hlen
    refine ⟨fun hn => ?_, fun hn => ?_, fun h1 h2 hclass => ?_⟩
    · obtain ⟨t, ht, hcomp, hend⟩ := hpolls.badLength hc' hk hok hs hbefore hlast hN (hlen ▸ lengthVerdict_noCard hn)
      exact ⟨t, ht, hcomp, hend.ofTaken⟩
    · obtain ⟨t, ht, hcomp, hend⟩ := hpolls.badLength hc' hk hok hs hbefore hlast hN (hlen ▸ lengthVerdict_badReadLength hn)
      exact ⟨t, ht, hcomp, hend.ofTaken⟩
    · obtain ⟨t, b, ht, hcomp, hlength, hbytes, hend⟩ :=
        hpolls.fetched hc' hk hok hs hbefore hlast hN hlen (lengthVerdict_fetch h1 h2) hclass
      exact ⟨t, b, ht, hcomp, hlength, hbytes, hend.ofTaken⟩
  · obtain ⟨t, ht, hcomp, hend⟩ := hpolls.noCard hc' hk hok hN hs
    exact ⟨t, ht, hcomp, hend.ofTaken⟩

/-- Settles O46: the engine leads to PreconditionViolation only past the read of RF_STATUS, and does so where an own action has left
another state. -/
theorem notReadyEndsPrecondition : Obligations.NotReadyEndsPrecondition := by
  refine ⟨fun s t p rest n result hc hr ht hcomp => preconditionViolation_of_step hc hr ht hcomp, ?_⟩
  intro s p rest n hc hk hb hr hacc hw hd hrigor hcycle hacts hn
  rw [step_of_idle hb hr]
  obtain ⟨t, ht, hcomp, hflags, hbuffers, hrest⟩ := opProtocolTransact_notReady (s := { s with requests := rest }) { hc with } hk
    ⟨hd, hacc⟩ hw (Bool.and_eq_true_iff.2 ⟨hcycle, hrigor⟩) hacts hn
  exact ⟨t, ht, hcomp, hflags, { hbuffers with }, hrest⟩

/-- A request that fails the engine's check ends there, whatever front-end is attached (R201). -/
theorem opProtocolTransact_rejected {s : State} {p : ProtocolRequest} {kind : ParamKind}
    (hp : sendError p.req.length p.validBits = some kind) :
    ∃ t, opProtocolTransact p s = .next t ∧ t.completion = some ⟨.paramError kind, .none⟩ ∧ t.fe = s.fe ∧
      Traffic s t 0 [] [] := by
  have hrun : engine p s.accept = .stop (.outcome (.paramError kind)) (s.accept.onPe fun e => { e with request := p }) := by
    simp only [engine, engineFront, engineCheck, checkOperands, paramError, hp, Run.stop_andThen]
  rw [opProtocolTransact, hrun]
  unfold finishEngine leaveStage
  dsimp only
  split
  · exact ⟨_, answer_next rfl, rfl, rfl, .refl s⟩
  · exact ⟨_, answer_next rfl, rfl, rfl, (Traffic.refl s).log (e := .stage .idle) rfl⟩

/-- Settles O43: the operands fail the check, the length the first of them, before any exchange. -/
theorem engineChecksRequest : Obligations.EngineChecksRequest := by
  intro s p rest hb hr
  rw [step_of_idle hb hr]
  exact ⟨fun h => opProtocolTransact_rejected (s := { s with requests := rest }) (sendError_badSendLength _ h),
    fun h1 h2 hv => opProtocolTransact_rejected (s := { s with requests := rest }) (sendError_badValidBits h1 h2 hv)⟩

/-- A byte that is not listed is in the default arm of the map (R214). -/
theorem mapError_unlisted {c : Byte} (h : c ∉ [0x01, 0x02, 0x03, 0x0F, 0x10, 0x11, 0x12, 0x13, 0x14]) :
    mapError c = if 0xA0 ≤ c.toNat ∧ c.toNat ≤ 0xDF then .customCommandError c else .unknownError := by
  simp only [List.mem_cons, List.not_mem_nil, or_false, not_or, BitVec.toNat_eq, BitVec.reduceToNat] at h
  unfold mapError
  split
  case h_10 => rfl
  all_goals omega

/-- Settles O41: the listed bytes one by one, and the default arm of the map for the custom range and for the rest. -/
theorem errorCodesMapped : Obligations.ErrorCodesMapped := by
  refine ⟨rfl, rfl, rfl, rfl, rfl, rfl, rfl, rfl, rfl, fun c h1 h2 => ?_, fun c hc h => ?_, fun c => ?_⟩
  · have hc : c ∉ [0x01, 0x02, 0x03, 0x0F, 0x10, 0x11, 0x12, 0x13, 0x14] := by
      simp only [List.mem_cons, List.not_mem_nil, or_false, not_or, BitVec.toNat_eq, BitVec.reduceToNat]
      omega
    exact (mapError_unlisted hc).trans (if_pos ⟨h1, h2⟩)
  · exact (mapError_unlisted hc).trans (if_neg (by omega))
  · unfold mapError
    split
    case h_10 => split <;> exact ⟨nofun, nofun⟩
    all_goals exact ⟨nofun, nofun⟩

end Sys2Proof.Machine
end

section
/-! SUPPORT. ProtocolTransact with FE_REF (R60 to R64, decision D26): what the request leaves in its registers, and the two ways the
transmission comes out, with no tag and with a tag that answers. -/

namespace Sys2Proof.Machine

/-! ## The registers the request writes -/

/-- FE_REF after the commands before SendData (R63, R203, R205). -/
def FeStore.requested (q : Params) (p : ProtocolRequest) (f : FeStore) : FeStore :=
  { f with
    crcTxConfig := crcLeft q.crcEnMask p.crcTx f.crcTxConfig
    crcRxConfig := crcLeft q.crcEnMask p.crcRx f.crcRxConfig
    systemConfig := if p.transceiveCycle then (f.systemConfig &&& ~~~q.cmdMask) ||| q.cmdTransceive else f.systemConfig
    ts := if p.transceiveCycle then 1 else f.ts
    irqStatus := f.irqStatus ||| (if p.transceiveCycle then 0x00000004 else 0) }

section

variable {s t u : State} {past : List Instr} {p : ProtocolRequest}

theorem State.ran_cons_reference (hk : s.fe.kind = .reference) (i : Instr) (past : List Instr) :
    s.ran (i :: past) = (s.ran past).react s.params .reference i := by
  rw [State.ran_cons, State.met_reference hk, hk]

/-- A CRC control writes its register, and Keep leaves it (R203). -/
theorem State.ran_crcCommand (hk : s.fe.kind = .reference) {a : Byte} (ha : a = 0x12 ∨ a = 0x19) (mask : Word) (c : CrcControl) :
    s.ran (crcCommand mask a c ++ past) =
      (s.ran past).setReg a (crcLeft mask c ((s.ran past).regRead s.params .reference a)) := by
  cases c with
  | on | off => rcases ha with rfl | rfl <;> exact State.ran_cons_reference hk _ _
  | keep => rcases ha with rfl | rfl <;> rfl

/-- The idle command and the start command (R63). -/
theorem State.ran_cycle (hk : s.fe.kind = .reference) (hcmd : s.params.commandsOk = true) :
    s.ran (cycleCommands s.params ++ past) =
      { s.ran past with
        systemConfig := ((s.ran past).systemConfig &&& ~~~s.params.cmdMask) ||| s.params.cmdTransceive
        ts := 1
        irqStatus := (s.ran past).irqStatus ||| 0x00000004 } := by
  simp only [Params.commandsOk, Bool.and_eq_true, decide_eq_true_eq] at hcmd
  obtain ⟨⟨hidle, hfield⟩, hne⟩ := hcmd
  have hcleared : (s.ran past).systemConfig &&& ~~~s.params.cmdMask &&& s.params.cmdMask = s.params.cmdIdle := by
    rw [hidle, BitVec.and_assoc, BitVec.not_and_self]
    exact BitVec.and_zero
  have hstarted : ((s.ran past).systemConfig &&& ~~~s.params.cmdMask ||| s.params.cmdTransceive) &&& s.params.cmdMask =
      s.params.cmdTransceive := by
    rw [BitVec.and_or_distrib_right, hcleared, hidle, hfield]
    exact BitVec.zero_or
  have h1 : s.ran (.writeRegisterAndMask 0x00 (~~~s.params.cmdMask) :: past) =
      (s.ran past).configured s.params ((s.ran past).systemConfig &&& ~~~s.params.cmdMask) := State.ran_cons_reference hk _ _
  have h2 : s.ran (cycleCommands s.params ++ past) =
      (s.ran (.writeRegisterAndMask 0x00 (~~~s.params.cmdMask) :: past)).configured s.params
        ((s.ran (.writeRegisterAndMask 0x00 (~~~s.params.cmdMask) :: past)).systemConfig ||| s.params.cmdTransceive) :=
    State.ran_cons_reference hk _ _
  rw [FeStore.configured_idle _ hcleared] at h1
  rw [h2, h1, FeStore.configured_transceive _ hstarted (by rwa [hidle])]

theorem State.ran_beforeCheck (hk : s.fe.kind = .reference) (hcmd : s.params.commandsOk = true) :
    s.ran (s.beforeCheck p) = s.fe.store.requested s.params p := by
  have hcrc : s.ran (crcCommand s.params.crcEnMask 0x12 p.crcRx ++ crcCommand s.params.crcEnMask 0x19 p.crcTx) =
      { s.fe.store with
        crcTxConfig := crcLeft s.params.crcEnMask p.crcTx s.fe.store.crcTxConfig
        crcRxConfig := crcLeft s.params.crcEnMask p.crcRx s.fe.store.crcRxConfig } := by
    rw [State.ran_crcCommand hk (.inl rfl), ← List.append_nil (crcCommand s.params.crcEnMask 0x19 p.crcTx),
      State.ran_crcCommand hk (.inr rfl)]
    rfl
  unfold State.beforeCheck FeStore.requested
  cases hc : p.transceiveCycle with
  | false =>
    have hflags : s.fe.store.irqStatus ||| 0 = s.fe.store.irqStatus := BitVec.or_zero
    simp only [Bool.false_eq_true, if_false, hflags]
    exact hcrc
  | true =>
    simp only [if_true]
    rw [State.ran_cycle hk hcmd, hcrc]

/-- The check reads nothing that moves FE_REF, and finds WaitTransmit (R63, R206). -/
theorem State.ran_beforeSend (hk : s.fe.kind = .reference) (hcmd : s.params.commandsOk = true) :
    s.ran (s.beforeSend p) = s.fe.store.requested s.params p := by
  rw [← State.ran_beforeCheck hk hcmd]
  unfold State.beforeSend
  split
  · exact (State.ran_read (by decide) _).trans (State.met_reference hk _)
  · rfl

theorem State.notReady_reference (hk : s.fe.kind = .reference) (hcmd : s.params.commandsOk = true) (hw : s.params.wf = true) :
    s.notReady p = none := by
  by_contra hne
  obtain ⟨n, hn⟩ := Option.ne_none_iff_exists'.1 hne
  obtain ⟨hcycle, -, h1, hts⟩ := State.notReady_eq_some.1 hn
  refine h1 (hts.symm.trans ?_)
  rw [State.shows, State.met_reference hk, State.ran_beforeCheck hk hcmd]
  refine (FeStore.tsField_rfStatus (Params.tsShift_le_of_wf hw) _ _).trans ?_
  rw [FeStore.requested, hcycle]
  rfl

theorem State.captured_sent_reference (hk : s.fe.kind = .reference) (hcmd : s.params.commandsOk = true) :
    s.captured (s.sent p) = readBeforeSend s p (stateField s.params.tsShift 1) := by
  have hsilent : s.captured (s.sent p) = s.captured (s.beforeSend p) := List.append_nil _
  rw [hsilent, s.captured_beforeSend_eq, State.ran_beforeSend hk hcmd, hk]
  unfold readBeforeSend FeStore.rfStatus FeStore.requested
  cases p.transceiveCycle <;> rfl

theorem State.ran_sent_reference (hk : s.fe.kind = .reference) (hcmd : s.params.commandsOk = true) :
    s.ran (s.sent p) = (s.fe.store.requested s.params p).transmit p.req p.validBits := by
  rw [State.sent, State.ran_cons_reference hk, State.ran_beforeSend hk hcmd]
  rfl

/-- Reads leave FE_REF as it is. -/
theorem State.ran_polled_reference (hk : s.fe.kind = .reference) (k : Nat) : ∀ past, s.ran (polled k past) = s.ran past := by
  induction k with
  | zero => exact fun past => rfl
  | succ k ih => exact fun past => (ih _).trans ((State.ran_read (by decide) _).trans (State.met_reference hk _))

theorem flagsShown_zero (v : Word) (k : Nat) : flagsShown v (List.replicate k 0) = List.replicate k v := by
  induction k with
  | zero => rfl
  | succ k ih =>
    have hv : v ||| 0 = v := BitVec.or_zero
    rw [List.replicate_succ, flagsShown, hv, ih, List.replicate_succ]

/-- What FE_REF shows at every poll is what it held after SendData. -/
theorem State.captured_polled_reference (hk : s.fe.kind = .reference) (hcmd : s.params.commandsOk = true) (k : Nat) :
    s.captured (s.throughPolls p k) = readBeforeSend s p (stateField s.params.tsShift 1) ++
      (List.replicate k (le32 (s.ran (s.sent p)).irqStatus)).flatten := by
  have hacts : s.ActsFrom (s.sent p).length ((List.replicate k (0 : Word)).map FeAct.flags ++ []) := by
    rw [List.append_nil, List.map_replicate]
    exact State.actsFrom_reference hk _ _
  have hcaptured := (State.ran_polled _ hacts).2
  rwa [List.length_replicate, flagsShown_zero, List.map_replicate, State.captured_sent_reference hk hcmd] at hcaptured

/-! ## The end of the operation -/

/-- FE_REF after the transmission, the reads and the clear: what it received is in these. -/
def FeStore.transmitted (q : Params) (p : ProtocolRequest) (validBits ts : BitVec 3) (irqStatus rxStatus : Word) (rxbuf : List Byte)
    (tag : List TagRule) (f : FeStore) : FeStore :=
  { f.requested q p with
    txbuf := p.req, txValidBits := validBits, ts := ts, irqStatus := irqStatus, rxStatus := rxStatus, rxbuf := rxbuf, tag := tag }

/-- The registers beside those the engine and its transmission move. -/
theorem FeStore.regRead_transmitted {a : Byte} (h : a ∉ [0x00, 0x02, 0x12, 0x13, 0x19, 0x1D]) (q : Params) (p : ProtocolRequest)
    (validBits ts : BitVec 3) (irqStatus rxStatus : Word) (rxbuf : List Byte) (tag : List TagRule) (f : FeStore) :
    (f.transmitted q p validBits ts irqStatus rxStatus rxbuf tag).regRead q .reference a = f.regRead q .reference a := by
  simp only [List.mem_cons, List.not_mem_nil, or_false, not_or, BitVec.toNat_eq, BitVec.reduceToNat] at h
  unfold FeStore.regRead FeStore.transmitted FeStore.requested
  split <;> simp_all

/-- The flags the engine consumes are cleared, whichever of them were set meanwhile (R216). -/
theorem clear_consumed {v w : Word} (h : w &&& ~~~engineFlags = 0) : (v ||| w) &&& ~~~engineFlags = v &&& ~~~engineFlags := by
  rw [BitVec.and_or_distrib_right, h]
  exact BitVec.or_zero

/-- The flags after the idle command, without those the engine consumes. -/
theorem flagsAfterIdle_consumed (s : State) (p : ProtocolRequest) :
    flagsAfterIdle s p &&& ~~~engineFlags = s.reg 0x02 &&& ~~~engineFlags :=
  clear_consumed (by cases p.transceiveCycle <;> rfl)

theorem engineLeft_of_store {validBits ts : BitVec 3} {irqStatus rxStatus : Word} {rxbuf : List Byte} {tag : List TagRule}
    (h : BlockAround s t) (hk : s.fe.kind = .reference)
    (hs : t.fe.store = s.fe.store.transmitted s.params p validBits ts irqStatus rxStatus rxbuf tag)
    (hflags : irqStatus = s.reg 0x02 &&& ~~~0x00004007) : EngineLeft s t p := by
  have hreg := h.reg_reference hk hs
  exact
    { crcTx := hreg 0x19
      crcRx := hreg 0x12
      systemConfig := hreg 0x00
      flags := (hreg 0x02).trans hflags
      rest := fun a ha => by rw [hreg, State.reg_reference hk, FeStore.regRead_transmitted ha]
      txbuf := by rw [hs]; rfl
      around := h
      radio := by rw [hs]; exact ⟨rfl, rfl, rfl⟩
      eeprom := fun a => by rw [State.eepromAt, hs]; rfl }

/-- The reads after the wait leave FE_REF as SendData left it, and the clear clears. -/
theorem State.ran_end_reference (hk : s.fe.kind = .reference) {after : List Instr} (hf : ∀ i ∈ after, Fetches i) (k : Nat) :
    s.ran (after ++ s.throughPolls p k) = s.ran (s.sent p) ∧
      s.ran (clearFlags :: (after ++ s.throughPolls p k)) =
        { s.ran (s.sent p) with irqStatus := (s.ran (s.sent p)).irqStatus &&& ~~~engineFlags } := by
  have hreads : s.ran (after ++ s.throughPolls p k) = s.ran (s.sent p) := by
    induction after with
    | nil => exact State.ran_polled_reference hk k _
    | cons i after ih =>
      obtain ⟨hi, hf⟩ := List.forall_mem_cons.1 hf
      rw [List.cons_append, State.ran_cons_reference hk, ih hf]
      cases hi <;> rfl
  exact ⟨hreads, by rw [State.ran_clearFlags (State.act_reference hk _), hreads]⟩

/-! ## With no tag -/

section

variable (hk : s.fe.kind = .reference) (hcmd : s.params.commandsOk = true) (htag : s.fe.store.tag = [])

include hk hcmd htag

/-- With no tag FE_REF waits for an answer (R64). -/
theorem State.ran_sent_noTag : s.ran (s.sent p) =
    s.fe.store.transmitted s.params p (BitVec.ofNat 3 p.validBits) 3 (flagsAfterIdle s p ||| 0x00000002) s.fe.store.rxStatus
      s.fe.store.rxbuf (tagAnswer p.req p.validBits s.fe.store.tag).2 := by
  have hsilent : (tagAnswer p.req p.validBits s.fe.store.tag).1 = [] := by
    rw [htag]
    rfl
  rw [State.ran_sent_reference hk hcmd, FeStore.transmit_unanswered (s.fe.store.requested s.params p) _ _ hsilent (.inl rfl)]
  rfl

/-- So no poll shows the flag, and the window runs out (R208, R209). -/
theorem State.front_noTag (hw : s.params.wf = true) (hstale : (s.reg 0x02).getLsbD 14 = false) :
    s.front p = (.inl .noCard, s.throughPolls p s.params.nRespPolls) := by
  have hflags : (s.ran (s.sent p)).irqStatus = flagsAfterIdle s p ||| 0x00000002 := by
    rw [State.ran_sent_noTag hk hcmd htag]
    rfl
  have hunset : (flagsAfterIdle s p ||| 0x00000002).getLsbD 14 = false := by
    rw [flagsAfterIdle, BitVec.getLsbD_or, BitVec.getLsbD_or, hstale]
    cases p.transceiveCycle <;> rfl
  have hfront := State.front_unseen (raised := List.replicate s.params.nRespPolls 0) (State.notReady_reference hk hcmd hw)
    (by rw [List.append_nil, List.map_replicate]; exact State.actsFrom_reference hk _ _)
    (by rw [flagsShown_zero, hflags]; exact fun v hv => List.eq_of_mem_replicate hv ▸ hunset) List.length_replicate
  rwa [List.length_replicate] at hfront

theorem opProtocolTransact_noTag (hq : s.Quiet) (hok : s.engineOk p) (hw : s.params.wf = true)
    (hstale : (s.reg 0x02).getLsbD 14 = false) :
    ∃ t, opProtocolTransact p s = .next t ∧ t.completion = some ⟨.noCard, .none⟩ ∧ t.requests = s.requests ∧
      EngineLeft s t p ∧
      Traffic s t (framesBeforeSend s p + 1 + 2 * s.params.nRespPolls + 1) (engineSends s p s.params.nRespPolls [])
        (readBeforeSend s p (stateField s.params.tsShift 1) ++
          (List.replicate s.params.nRespPolls (le32 (flagsAfterIdle s p ||| 0x00000002))).flatten) := by
  have hsent := State.ran_sent_noTag (p := p) hk hcmd htag
  have hfront := State.front_noTag (p := p) hk hcmd htag hw hstale
  obtain ⟨u, hu, hran⟩ := opProtocolTransact_ran hq.calm hok fun n hn => by rw [hfront] at hn; cases hn
  simp only [State.record, State.commands, hfront] at hu hran
  have htraffic := hran.traffic_sent (after := []) ⟨.noCard, .none⟩
  rw [List.nil_append, State.captured_polled_reference hk hcmd, hsent] at htraffic
  have hend := (State.ran_end_reference (p := p) hk (after := []) nofun s.params.nRespPolls).2
  rw [List.nil_append, hsent] at hend
  exact ⟨_, hu, rfl, hran.requests, engineLeft_of_store (hran.around hk _) hk (hran.store.trans hend)
    ((clear_consumed rfl).trans (flagsAfterIdle_consumed s p)), htraffic⟩

end

/-! ## With a tag that answers -/

/-- The length FE_REF leaves in RX_STATUS, whatever the bits beside it (R64, R210). -/
theorem lengthField_received (v : Word) {n : Nat} (h : n ≤ 508) :
    (lengthField ((v &&& ~~~0x000001FF) ||| BitVec.ofNat 32 n)).toNat = n := by
  have hfield : lengthField ((v &&& ~~~0x000001FF) ||| BitVec.ofNat 32 n) = BitVec.ofNat 9 n := by
    refine BitVec.eq_of_getLsbD_eq fun i hi => ?_
    have hmask : (0x000001FF : Word).getLsbD i = true := by
      revert i
      decide
    have h32 : i < 32 := by omega
    rw [lengthField, BitVec.getLsbD_extractLsb', Nat.zero_add, BitVec.getLsbD_or, BitVec.getLsbD_and, BitVec.getLsbD_not, hmask,
      BitVec.getLsbD_ofNat, BitVec.getLsbD_ofNat]
    simp [hi, h32]
  rw [hfield, BitVec.toNat_ofNat, Nat.mod_eq_of_lt (by omega)]

theorem classifyResponse_ok {f : Byte} (h : errorFlag f = false) (more : List Byte) :
    classifyResponse (f :: more) = (.ok, some (extensionFlag f)) := by
  simp [classifyResponse, h]

/-- One byte with the error flag has no code to map (D19). -/
theorem classifyResponse_uncoded {f : Byte} (h : errorFlag f = true) :
    classifyResponse [f] = (.tagError .unknownError, none) := by
  simp [classifyResponse, h]

theorem classifyResponse_coded {f : Byte} (h : errorFlag f = true) (c : Byte) (later : List Byte) :
    classifyResponse (f :: c :: later) = (.tagError (mapError c), none) := by
  simp [classifyResponse, h]

theorem ProtocolRequest.delivers_classified {p : ProtocolRequest} (hc : p.classify = true) {resp : List Byte} {o : OpOutcome}
    {ext : Option Bool} (h : classifyResponse resp = (o, ext)) : p.delivers resp = ⟨o, .response resp ext⟩ := by
  rw [ProtocolRequest.delivers, if_pos hc, h]

section

variable {resp : List Byte} (hk : s.fe.kind = .reference) (hcmd : s.params.commandsOk = true)
  (htag : (tagAnswer p.req p.validBits s.fe.store.tag).1 = resp) (h1 : 1 ≤ resp.length) (h2 : resp.length ≤ 508)

include hk hcmd htag h1 h2

/-- The answer is received with the transmission (R64). -/
theorem State.ran_sent_answered : s.ran (s.sent p) =
    s.fe.store.transmitted s.params p (BitVec.ofNat 3 p.validBits) 0 (flagsAfterIdle s p ||| 0x00004003)
      ((s.fe.store.rxStatus &&& ~~~0x000001FF) ||| BitVec.ofNat 32 resp.length) resp
      (tagAnswer p.req p.validBits s.fe.store.tag).2 := by
  rw [State.ran_sent_reference hk hcmd, FeStore.transmit_answered (s.fe.store.requested s.params p) _ _ htag ⟨h1, h2⟩]
  rfl

/-- RX_STATUS after the first poll. -/
theorem State.shows_answered : s.shows (s.throughPolls p 1) 0x13 =
    (s.fe.store.rxStatus &&& ~~~0x000001FF) ||| BitVec.ofNat 32 resp.length := by
  have hpolled : s.ran (s.throughPolls p 1) = s.ran (s.sent p) := State.ran_polled_reference hk 1 _
  rw [State.shows, State.met_reference hk, hpolled, State.ran_sent_answered hk hcmd htag h1 h2]
  rfl

/-- The first poll shows the flag, and the length is that of the answer (R208, R210). -/
theorem State.front_answered (hw : s.params.wf = true) :
    s.front p = (.inr resp.length, .readRegister 0x13 :: s.throughPolls p 1) := by
  have hflags : (s.ran (s.sent p)).irqStatus = flagsAfterIdle s p ||| 0x00004003 := by
    rw [State.ran_sent_answered hk hcmd htag h1 h2]
    rfl
  have hset : (flagsAfterIdle s p ||| 0x00004003).getLsbD 14 = true := by
    rw [BitVec.getLsbD_or]
    exact Bool.or_true _
  have hN : 1 ≤ s.params.nRespPolls := by
    simp only [Params.wf, Bool.and_eq_true, decide_eq_true_eq] at hw
    exact hw.1.2
  have hfront := State.front_shown (raised := [0]) (before := []) (last := flagsAfterIdle s p ||| 0x00004003)
    (State.notReady_reference hk hcmd hw) (State.actsFrom_reference hk _ 1) (by rw [hflags]; exact flagsShown_zero _ 1) nofun hset hN
  rwa [List.length_singleton, State.shows_answered hk hcmd htag h1 h2, lengthField_received _ h2,
    lengthVerdict_fetch h1 h2] at hfront

/-- The fetch delivers it whole (R213). -/
theorem State.fetch_answered : s.ran (.readRegister 0x13 :: s.throughPolls p 1) = s.ran (s.sent p) ∧
    (s.met (.readRegister 0x13 :: s.throughPolls p 1)).answerReadData s.fe.kind resp.length = resp := by
  have hread := (State.ran_end_reference (p := p) hk (after := [.readRegister 0x13])
    (fun _ hi => List.mem_singleton.1 hi ▸ .length) 1).1
  refine ⟨hread, ?_⟩
  rw [State.met_reference hk, hk]
  refine (congrArg (FeStore.answerReadData .reference resp.length) hread).trans ?_
  rw [State.ran_sent_answered hk hcmd htag h1 h2]
  exact List.take_length

theorem opProtocolTransact_answered (hq : s.Quiet) (hok : s.engineOk p) (hw : s.params.wf = true) :
    ∃ t, opProtocolTransact p s = .next t ∧ t.completion = some (p.delivers resp) ∧ t.requests = s.requests ∧
      EngineLeft s t p ∧ t.fe.store.rxbuf = resp ∧
      Traffic s t (framesBeforeSend s p + 8) (engineSends s p 1 [0x04, 0x13, 0x0A, 0x00])
        (readBeforeSend s p (stateField s.params.tsShift 1) ++ le32 (flagsAfterIdle s p ||| 0x00004003) ++
          le32 (t.reg 0x13) ++ resp) := by
  have hsent := State.ran_sent_answered hk hcmd htag h1 h2
  have hfront := State.front_answered hk hcmd htag h1 h2 hw
  obtain ⟨hread, hanswer⟩ := State.fetch_answered hk hcmd htag h1 h2
  obtain ⟨u, hu, hran⟩ := opProtocolTransact_ran hq.calm hok fun n hn _ => by
    rw [hfront] at hn ⊢
    cases hn
    rw [hread, hsent]
    exact Nat.le_refl _
  simp only [State.record, State.commands, hfront, hanswer] at hu hran
  have htraffic := hran.traffic_sent (after := [.readData resp.length, .readRegister 0x13]) (p.delivers resp)
  have hend := (State.ran_end_reference (p := p) hk (after := [.readData resp.length, .readRegister 0x13])
    (fetches_fetch _) 1).2
  rw [hsent] at hend
  have hstore := hran.store.trans hend
  have hreg : (u.complete (p.delivers resp)).reg 0x13 = s.shows (s.throughPolls p 1) 0x13 := by
    rw [State.shows_answered hk hcmd htag h1 h2]
    exact congrArg FeStore.rxStatus hstore
  rw [s.captured_fetch, hanswer, ← hreg, State.captured_polled_reference hk hcmd, hsent, frameCount_fetch h1] at htraffic
  exact ⟨_, hu, rfl, hran.requests, engineLeft_of_store (hran.around hk _) hk hstore
    ((clear_consumed rfl).trans (flagsAfterIdle_consumed s p)), congrArg FeStore.rxbuf hstore, htraffic⟩

end

/-! ## The statements -/

/-- A claim about what the engine leaves does not look at the records at the client port. -/
theorem EngineLeft.ofTaken {rest : List Request} (h : EngineLeft { s with requests := rest } t p) : EngineLeft s t p :=
  { h with around := h.around.ofTaken, eeprom := h.eeprom }

end

/-- Settles O44: the transmission sets no start-of-frame flag, so that the window runs out. -/
theorem noTagEndsNoCard : Obligations.NoTagEndsNoCard := by
  intro s p rest hq hk hb hr hacc hw hd hcmd htag hstale
  obtain ⟨t, ht, hcomp, hrequests, hleft, htraffic⟩ :=
    opProtocolTransact_noTag (s := { s with requests := rest }) (p := p) hk hcmd htag (hq.taken rest) ⟨hd, hacc⟩ hw hstale
  exact ⟨t, (step_of_idle hb hr).trans ht, hcomp, hrequests, hleft.ofTaken, htraffic⟩

/-- Settles O45: the transmission brings the answer, the first poll shows it, and the fetch takes it whole; the classification decides
the rest. -/
theorem tagAnswerClassified : Obligations.TagAnswerClassified := by
  intro s p rest f more hq hk hb hr hacc hw hd hcmd htag hlen
  obtain ⟨t, ht, hcomp, hrequests, hleft, hrxbuf, htraffic⟩ :=
    opProtocolTransact_answered (s := { s with requests := rest }) (p := p) hk hcmd htag (Nat.le_add_left 1 _) hlen
      (hq.taken rest) ⟨hd, hacc⟩ hw
  refine ⟨t, (step_of_idle hb hr).trans ht, hrequests, hleft.ofTaken, fun hc => ?_, fun hc h0 => ?_, fun hc h0 hm => ?_,
    fun c later hc h0 hm => ?_, hrxbuf, htraffic⟩
  · rw [hcomp, ProtocolRequest.delivers, hc]
    rfl
  · rw [hcomp, ProtocolRequest.delivers_classified hc (classifyResponse_ok h0 more)]
    rfl
  · subst hm
    rw [hcomp, ProtocolRequest.delivers_classified hc (classifyResponse_uncoded h0)]
  · subst hm
    rw [hcomp, ProtocolRequest.delivers_classified hc (classifyResponse_coded h0 c later)]

end Sys2Proof.Machine
end

section
/-! SUPPORT. The walk over the information flags of a Get-System-Info response (R249): what each field takes of the bytes left,
where it is there and where it is not. -/

namespace Sys2Proof.Machine

/-- The walk over the bytes after the UID, without the head of the response. -/
def walkSystemInfo (info : Byte) (r : List Byte) : Option SystemInfo :=
  (takeField (info.getLsbD 0) r).bind fun d =>
  (takeField (info.getLsbD 1) d.2).bind fun a =>
  (takeMemorySize (info.getLsbD 2) a.2).bind fun m =>
  (takeField (info.getLsbD 3) m.2).map fun i => ⟨d.1, a.1, m.1.1, m.1.2, i.1⟩

theorem parseSystemInfo_short {r : List Byte} (h : r.length < 10) : parseSystemInfo r = none := if_pos h

/-- Past flags, information flags and UID, the parser is the walk. -/
theorem parseSystemInfo_head (f info : Byte) {uid : List Byte} (h : uid.length = 8) (r : List Byte) :
    parseSystemInfo (f :: info :: uid ++ r) = walkSystemInfo info r := by
  have hlong : ¬ (f :: info :: uid ++ r).length < 10 := by simp [h]
  have hrest : (f :: info :: uid ++ r).drop 10 = r := List.drop_left' (by simp [h])
  rw [parseSystemInfo, if_neg hlong, hrest]
  rfl

section

variable (present : Bool) (r : List Byte)

/-- A promised byte is taken, and an unpromised one is not looked for. -/
theorem takeField_promised (b : Byte) : takeField present ((if present then [b] else []) ++ r) =
    some (if present then some b else none, r) := by
  cases present <;> rfl

theorem takeMemorySize_promised (size count : Byte) : takeMemorySize present ((if present then [size, count] else []) ++ r) =
    some ((if present then some (size.toNat % 32 + 1) else none, if present then some (count.toNat + 1) else none), r) := by
  cases present <;> rfl

end

/-- A field that is taken was there: it has one byte where its flag is set. -/
theorem length_of_takeField {present : Bool} {r : List Byte} {v : Option Byte × List Byte} (h : takeField present r = some v) :
    r.length = (if present then 1 else 0) + v.2.length := by
  cases present with
  | false => cases h; exact (Nat.zero_add _).symm
  | true =>
    cases r with
    | nil => cases h
    | cons b r => cases h; exact Nat.add_comm _ _

/-- The memory size has two. -/
theorem length_of_takeMemorySize {present : Bool} {r : List Byte} {v : (Option Nat × Option Nat) × List Byte}
    (h : takeMemorySize present r = some v) : r.length = (if present then 2 else 0) + v.2.length := by
  cases present with
  | false => cases h; exact (Nat.zero_add _).symm
  | true =>
    match r, h with
    | size :: count :: r, h => cases h; exact Nat.add_comm r.length 2

/-- A walk that comes to its end has found all the bytes its flags promise. -/
theorem le_length_of_walkSystemInfo {info : Byte} {r : List Byte} {v : SystemInfo} (h : walkSystemInfo info r = some v) :
    (if info.getLsbD 0 then 1 else 0) + (if info.getLsbD 1 then 1 else 0) + (if info.getLsbD 2 then 2 else 0) +
      (if info.getLsbD 3 then 1 else 0) ≤ r.length := by
  simp only [walkSystemInfo, Option.bind_eq_some_iff, Option.map_eq_some_iff] at h
  obtain ⟨d, hd, a, ha, m, hm, i, hi, -⟩ := h
  rw [length_of_takeField hd, length_of_takeField ha, length_of_takeMemorySize hm, length_of_takeField hi]
  omega

/-- Settles O59: each field takes its promised bytes and leaves the others to the next, and a walk to the end needs all of them. -/
theorem systemInfoWalk : Obligations.SystemInfoWalk := by
  refine ⟨fun f info uid d a size count ic more huid => ?_, fun f info uid r huid hshort => ?_, fun r => parseSystemInfo_short⟩
  · rw [parseSystemInfo_head f info huid, walkSystemInfo]
    simp only [List.append_assoc, takeField_promised, takeMemorySize_promised, Option.bind_some, Option.map_some]
  · rw [parseSystemInfo_head f info huid]
    exact Option.eq_none_iff_forall_ne_some.2 fun v hv => absurd (le_length_of_walkSystemInfo hv) (Nat.not_le.2 hshort)

end Sys2Proof.Machine
end

section
/-! SUPPORT. The Type-A activation with FE_REF and a tag that answers (R230 to R238, decision D26): one exchange leaves a machine
that is ready for the next, facing the rules the tag has then; a cascade level is two of them, and the activation goes through one
level or two. -/

namespace Sys2Proof.Machine

/-! ## One exchange after another -/

/-- What every exchange of a sequence finds: FE_REF at rest before a tag of these rules, with the parameters the engine needs. -/
structure State.Faces (s : State) (tag : List TagRule) : Prop where
  quiet : s.Quiet
  kind : s.fe.kind = .reference
  wf : s.params.wf = true
  defined : s.params.usesDefined = true
  commands : s.params.commandsOk = true
  tag : s.fe.store.tag = tag

section

variable {α : Type} {s : State} {tag later : List TagRule} {resp : List Byte}

/-- FE_REF reads no input, so that it is at rest when BUSY is 0 and no reset event is on its way. -/
theorem State.Calm.quiet_reference (h : s.Calm) (hk : s.fe.kind = .reference) : s.Quiet :=
  ⟨by simp [FrontEnd.cooperative, FrontEnd.plain, h.busy, hk], h.noReset⟩

/-- Every response is delivered (R213). -/
theorem ProtocolRequest.delivers_result (p : ProtocolRequest) (resp : List Byte) :
    ∃ ext, (p.delivers resp).result = .response resp ext := by
  unfold ProtocolRequest.delivers
  split <;> exact ⟨_, rfl⟩

/-- The response is the tag's answer, and the machine faces the rules the tag has from then on (R64, R218). -/
theorem opProtocolTransact_faces (h : s.Faces tag) {p : ProtocolRequest} (hacc : p.accepted = true)
    (ha : tagAnswer p.req p.validBits tag = (resp, later)) (h1 : 1 ≤ resp.length) (h2 : resp.length ≤ 508) :
    ∃ t, opProtocolTransact p s = .next t ∧ t.completion = some (p.delivers resp) ∧ t.Faces later := by
  obtain ⟨hq, hk, hw, hd, hcmd, rfl⟩ := h
  have hresp : (tagAnswer p.req p.validBits s.fe.store.tag).1 = resp := congrArg Prod.fst ha
  have hlater : (tagAnswer p.req p.validBits s.fe.store.tag).2 = later := congrArg Prod.snd ha
  obtain ⟨t, ht, hcomp, -⟩ := opProtocolTransact_answered hk hcmd hresp h1 h2 hq ⟨hd, hacc⟩ hw
  refine ⟨t, ht, hcomp, ?_⟩
  rcases completion_of_opProtocolTransact hq.calm ht with ⟨u, rfl, hu⟩ | ⟨kind, hkind⟩
  · have hku := hu.kind.trans hk
    have hcommands : s.commands p =
        clearFlags :: ([.readData resp.length, .readRegister 0x13] ++ s.throughPolls p 1) := by
      rw [State.commands, State.front_answered hk hcmd hresp h1 h2 hw]
      rfl
    have hstore := hu.store
    rw [hcommands, (State.ran_end_reference hk (fetches_fetch _) 1).2, State.ran_sent_answered hk hcmd hresp h1 h2,
      hlater] at hstore
    exact
      { quiet := { hu.calm.quiet_reference hku with }
        kind := hku
        wf := hu.params.symm ▸ hw
        defined := hu.params.symm ▸ hd
        commands := hu.params.symm ▸ hcmd
        tag := congrArg FeStore.tag hstore }
  · obtain ⟨ext, hresult⟩ := p.delivers_result resp
    rw [hcomp] at hkind
    cases hresult.symm.trans (congrArg Completion.result (Option.some.inj hkind))

/-- A raw exchange with a tag whose answer has the expected length goes on with that answer (R217, R230). -/
theorem typeAExchange_answered (h : s.Faces tag) {req : List Byte} {validBits : Nat}
    (hlen : 1 ≤ req.length ∧ req.length ≤ 260) (hv : validBits ≤ 7) (ha : tagAnswer req validBits tag = (resp, later))
    (hresp : 1 ≤ resp.length ∧ resp.length ≤ 508) (crc : CrcControl) (rest : List Byte → State → Sequence α) :
    ∃ t, t.Faces later ∧ typeAExchange req validBits crc resp.length rest s = rest resp t := by
  obtain ⟨t, ht, hcomp, hfaces⟩ := opProtocolTransact_faces (p := ⟨req, validBits, crc, crc, true, false⟩) h
    (by simp [ProtocolRequest.accepted, Config.maxSend, hlen, hv]) ha hresp.1 hresp.2
  refine ⟨t, hfaces, ?_⟩
  rw [typeAExchange, tagExchange, ht]
  simp only [hcomp, ProtocolRequest.delivers, Bool.false_eq_true, if_false, if_true]

/-- The rules of a tag answer the two frames of a cascade level, as often as they come (R232, R233). -/
structure AnswersLevel (tag : List TagRule) (select : Byte) (uid : List Byte) (sak : Byte) : Prop where
  anticollision : tagAnswer [select, 0x20] 0 tag = (uid, tag)
  select : tagAnswer (select :: 0x70 :: uid) 0 tag = ([sak], tag)
  length : uid.length = 5

/-- A cascade level with such a tag goes on with the five bytes and the SAK (R234, R235). -/
theorem cascadeLevel_answered (h : s.Faces tag) {select sak : Byte} {uid : List Byte} (ha : AnswersLevel tag select uid sak)
    (crc : CrcControl) (rest : List Byte → Byte → State → Sequence α) :
    ∃ u, u.Faces tag ∧ cascadeLevel select crc rest s = rest uid sak u := by
  obtain ⟨hanti, hselect, hlen⟩ := ha
  obtain ⟨t, ht, heq⟩ := typeAExchange_answered h (by simp) (by decide) hanti (by simp [hlen]) crc
    fun uid t => typeAExchange (select :: 0x70 :: uid) 0 .on 1 (fun sak u => rest uid (sak.headD 0) u) t
  obtain ⟨u, hu, heq'⟩ := typeAExchange_answered ht (by simp [hlen]) (by decide) hselect (by simp) .on
    fun sak u => rest uid (sak.headD 0) u
  rw [hlen] at heq
  exact ⟨u, hu, heq.trans heq'⟩

end

/-! ## The activation -/

/-- The activation after its second level (R235, R236). -/
def afterSecondLevel (atqa a b : List Byte) (sak : Byte) (s : State) : Sequence TypeATag :=
  if cascadeBit sak then .next (.protocolViolation, s) else .next (.ok ⟨atqa, (a.take 4).drop 1 ++ b.take 4⟩, s)

/-- The activation after its first level (R234 to R236). -/
def afterFirstLevel (atqa a : List Byte) (sak : Byte) (s : State) : Sequence TypeATag :=
  if !cascadeBit sak then .next (.ok ⟨atqa, a.take 4⟩, s)
  else if a.headD 0 ≠ cascadeMarker then .next (.protocolViolation, s)
  else cascadeLevel 0x95 .off (afterSecondLevel atqa a) s

section

variable {s : State} {tag : List TagRule} {wake sak sak2 : Byte} {atqa a b : List Byte}

theorem activateTypeA_eq (wake : Byte) (s : State) : activateTypeA wake s =
    typeAExchange [wake] 7 .off 2 (fun atqa t => cascadeLevel 0x93 .keep (afterFirstLevel atqa) t) s := rfl

/-- The tag answers the wake-up and the first level. -/
theorem activateTypeA_answered (h : s.Faces tag) (hw : tagAnswer [wake] 7 tag = (atqa, tag)) (hatqa : atqa.length = 2)
    (h1 : AnswersLevel tag 0x93 a sak) :
    ∃ t, t.Faces tag ∧ activateTypeA wake s = afterFirstLevel atqa a sak t := by
  obtain ⟨t, ht, heq⟩ := typeAExchange_answered h (by simp) (by decide) hw (by simp [hatqa]) .off
    fun atqa t => cascadeLevel 0x93 .keep (afterFirstLevel atqa) t
  obtain ⟨u, hu, heq'⟩ := cascadeLevel_answered ht h1 .keep (afterFirstLevel atqa)
  rw [hatqa] at heq
  exact ⟨u, hu, (activateTypeA_eq wake s).trans (heq.trans heq')⟩

theorem afterFirstLevel_complete (h : cascadeBit sak = false) (atqa a : List Byte) (s : State) :
    afterFirstLevel atqa a sak s = .next (.ok ⟨atqa, a.take 4⟩, s) := by
  rw [afterFirstLevel, h]
  rfl

theorem afterFirstLevel_unmarked (h : cascadeBit sak = true) (hm : a.headD 0 ≠ cascadeMarker) (atqa : List Byte) (s : State) :
    afterFirstLevel atqa a sak s = .next (.protocolViolation, s) := by
  rw [afterFirstLevel, h, if_pos hm]
  rfl

/-- With the marker the second level follows. -/
theorem afterFirstLevel_marked (h : cascadeBit sak = true) (hm : a.headD 0 = cascadeMarker) (atqa : List Byte)
    (hs : s.Faces tag) (h2 : AnswersLevel tag 0x95 b sak2) :
    ∃ t, t.Faces tag ∧ afterFirstLevel atqa a sak s = afterSecondLevel atqa a b sak2 t := by
  rw [afterFirstLevel, h, if_neg (not_not_intro hm)]
  exact cascadeLevel_answered hs h2 .off (afterSecondLevel atqa a)

theorem afterSecondLevel_complete (h : cascadeBit sak2 = false) (atqa a b : List Byte) (s : State) :
    afterSecondLevel atqa a b sak2 s = .next (.ok ⟨atqa, (a.take 4).drop 1 ++ b.take 4⟩, s) := by
  rw [afterSecondLevel, h]
  rfl

theorem afterSecondLevel_incomplete (h : cascadeBit sak2 = true) (atqa a b : List Byte) (s : State) :
    afterSecondLevel atqa a b sak2 s = .next (.protocolViolation, s) := if_pos h

end

/-! ## What the tags of R238 hear -/

/-- With no count of valid bits every bit goes over RF (R78). -/
theorem rfFrame_whole (bytes : List Byte) : rfFrame bytes 0 = (bytes, 8 * bytes.length) := by
  cases bytes using List.reverseRecOn with
  | nil => rfl
  | append_singleton l b => simp [rfFrame, lastByte]

/-- A short frame of 7 bits. -/
theorem rfFrame_short (b : Byte) : rfFrame [b] 7 = ([b &&& 0x7F], 7) := rfl

section

variable (wake q0 q1 a0 a1 a2 a3 a4 sak : Byte) (more : List TagRule)

theorem tag4_wake : tagAnswer [wake] 7 (tag4 wake q0 q1 a0 a1 a2 a3 a4 sak ++ more) =
    ([q0, q1], tag4 wake q0 q1 a0 a1 a2 a3 a4 sak ++ more) := by
  simp [tag4, tagAnswer, TagRule.hears]

/-- The wake-up rule hears another number of bits. -/
theorem tag4_answersLevel :
    AnswersLevel (tag4 wake q0 q1 a0 a1 a2 a3 a4 sak ++ more) 0x93 [a0, a1, a2, a3, a4] sak :=
  { anticollision := by simp [tag4, tagAnswer, TagRule.hears, rfFrame_short, rfFrame_whole]
    select := by simp [tag4, tagAnswer, TagRule.hears, rfFrame_short, rfFrame_whole]
    length := rfl }

/-- The rules of the first level hear frames that begin with another byte. -/
theorem tag4_answersLevel_second (b0 b1 b2 b3 b4 sak2 : Byte) :
    AnswersLevel (tag4 wake q0 q1 a0 a1 a2 a3 a4 sak ++
      [⟨some ([0x95, 0x20], 0), [b0, b1, b2, b3, b4], false⟩,
        ⟨some ([0x95, 0x70, b0, b1, b2, b3, b4], 0), [sak2], false⟩]) 0x95 [b0, b1, b2, b3, b4] sak2 :=
  { anticollision := by simp [tag4, tagAnswer, TagRule.hears, rfFrame_short, rfFrame_whole]
    select := by simp [tag4, tagAnswer, TagRule.hears, rfFrame_short, rfFrame_whole]
    length := rfl }

end

/-! ## The statements -/

/-- Settles O57: one level, after which the SAK and the first byte decide. -/
theorem activationOfFourByteTag : Obligations.ActivationOfFourByteTag := by
  intro s wake q0 q1 a0 a1 a2 a3 a4 sak hq hk hw hd hcmd _ htag
  rw [← List.append_nil (tag4 _ _ _ _ _ _ _ _ _)] at htag
  obtain ⟨t, -, ht⟩ := activateTypeA_answered ⟨hq, hk, hw, hd, hcmd, htag⟩ (tag4_wake ..) rfl (tag4_answersLevel ..)
  exact ⟨fun hsak => ⟨t, ht.trans (afterFirstLevel_complete hsak _ _ t)⟩,
    fun hsak ha => ⟨t, ht.trans (afterFirstLevel_unmarked (a := [a0, a1, a2, a3, a4]) hsak ha _ t)⟩⟩

/-- Settles O58: the marker leads to the second level, whose SAK decides. -/
theorem activationOfSevenByteTag : Obligations.ActivationOfSevenByteTag := by
  intro s wake q0 q1 a1 a2 a3 a4 sak1 b0 b1 b2 b3 b4 sak2 hq hk hw hd hcmd _ htag hsak1
  obtain ⟨t, hfaces, ht⟩ :=
    activateTypeA_answered ⟨hq, hk, hw, hd, hcmd, htag⟩ (tag4_wake ..) rfl (tag4_answersLevel ..)
  obtain ⟨u, -, hu⟩ :=
    afterFirstLevel_marked (a := [0x88, a1, a2, a3, a4]) hsak1 rfl [q0, q1] hfaces (tag4_answersLevel_second ..)
  have hend := ht.trans hu
  exact ⟨fun hsak2 => ⟨u, hend.trans (afterSecondLevel_complete hsak2 _ _ _ u)⟩,
    fun hsak2 => ⟨u, hend.trans (afterSecondLevel_incomplete hsak2 _ _ _ u)⟩⟩

end Sys2Proof.Machine
end

section
/-! SUPPORT. The reset event comes from outside only (R290): with none on its way no piece of an operation is ended by it, and none is
on its way afterwards. -/

namespace Sys2Proof.Machine

/-- The piece of an operation is not ended by the reset event, and leaves none on its way. -/
abbrev Run.Unreset {α : Type} (m : Run α) : Prop := m.Sat (fun _ t => t.resetIn = none) fun why _ => why ≠ .reset

section

variable {s : State}

/-! ## The bus transport (R130 to R143) -/

theorem pulse_unreset (h : s.resetIn = none) : (pulse s).Unreset := by
  rw [pulse_none h]
  exact h

theorem settle_unreset (h : s.resetIn = none) : (settle s).Unreset := (pulse_unreset h).andThen fun _ _ ht => ht

theorem sampleBusy_unreset (h : s.resetIn = none) : (sampleBusy s).Unreset := (pulse_unreset h).andThen fun _ _ ht => ht

theorem raiseBusTimeout_unreset {α : Type} (cause : BusCause) (s : State) : (raiseBusTimeout cause s : Run α).Unreset := by
  obtain ⟨t, ht, -⟩ := raiseBusTimeout_stops (α := α) cause s
  rw [ht]
  exact nofun

theorem waitSamples_unreset (level : Bool) (cause : BusCause) (n : Nat) :
    ∀ {s : State}, s.resetIn = none → (waitSamples level cause n s).Unreset := by
  induction n with
  | zero =>
    refine fun h => (sampleBusy_unreset h).andThen fun b t ht => ?_
    split
    · exact ht
    · exact raiseBusTimeout_unreset cause t
  | succ n ih =>
    refine fun h => (sampleBusy_unreset h).andThen fun b t ht => ?_
    split
    · exact ht
    · exact ih ht

theorem waitBusy_unreset (p : BtPhase) (level : Bool) (cause : BusCause) (h : s.resetIn = none) :
    (waitBusy p level cause s).Unreset := waitSamples_unreset level cause _ h

theorem assertSelect_unreset (dir : BtDir) (h : s.resetIn = none) : (assertSelect dir s).Unreset := by
  refine (pulse_unreset (s := s.enter .settleA) h).andThen fun _ t ht => settle_unreset ?_
  cases dir with
  | wr | rd => exact ht

theorem sendByte_unreset (b : Byte) (h : s.resetIn = none) : (sendByte b s).Unreset := (pulse_unreset h).andThen fun _ _ ht => ht

theorem sendBytes_unreset (bytes : List Byte) : ∀ {s : State}, s.resetIn = none → (sendBytes bytes s).Unreset := by
  induction bytes with
  | nil => exact fun h => h
  | cons b rest ih => exact fun h => (sendByte_unreset b h).andThen fun _ _ ht => ih ht

theorem captureByte_unreset (h : s.resetIn = none) : (captureByte s).Unreset := (pulse_unreset h).andThen fun _ _ ht => ht

theorem captureBytes_unreset (n : Nat) : ∀ {s : State}, s.resetIn = none → (captureBytes n s).Unreset := by
  induction n with
  | zero => exact fun h => h
  | succ n ih => exact fun h => (captureByte_unreset h).andThen fun _ _ ht => ih ht

theorem releaseSelect_unreset (dir : BtDir) (readLen : Nat) (h : s.resetIn = none) : (releaseSelect dir readLen s).Unreset := by
  refine (pulse_unreset (s := s.enter .settleD) h).andThen fun _ t ht => settle_unreset ?_
  cases dir with
  | wr | rd => exact ht

theorem finishFrame_unreset (dir : BtDir) (readLen : Nat) (h : s.resetIn = none) : (finishFrame dir readLen s).Unreset :=
  (waitBusy_unreset (s := s.onFe FrontEnd.raiseBusy) _ _ _ h).andThen fun _ _ ht =>
    (releaseSelect_unreset dir readLen ht).andThen fun _ _ hu => waitBusy_unreset _ _ _ hu

theorem writeFrame_unreset (bytes : List Byte) (readLen : Nat) (h : s.resetIn = none) :
    (writeFrame bytes readLen s).Unreset :=
  (assertSelect_unreset .wr h).andThen fun _ t ht =>
    (sendBytes_unreset bytes (s := t.enter .xfer) ht).andThen fun _ _ hu => finishFrame_unreset .wr readLen hu

theorem readFrame_unreset (n : Nat) (h : s.resetIn = none) : (readFrame n s).Unreset :=
  (assertSelect_unreset (s := (dcReadPhase s).onBus _) .rd h).andThen fun _ t ht =>
    (captureBytes_unreset n (s := t.enter .xfer) ht).andThen fun _ _ hu => finishFrame_unreset .rd n hu

theorem startExchange_unreset (send : List Byte) (h : s.resetIn = none) : (startExchange send s).Unreset :=
  waitBusy_unreset (s := s.onBus _) _ _ _ h

theorem exchange_unreset (send : List Byte) (h : s.resetIn = none) : (exchange send s).Unreset :=
  (startExchange_unreset send h).andThen fun _ _ ht => (writeFrame_unreset _ 0 ht).andThen fun _ _ hu => hu

theorem exchangeRead_unreset (send : List Byte) (n : Nat) (h : s.resetIn = none) : (exchangeRead send n s).Unreset :=
  (startExchange_unreset send h).andThen fun _ _ ht =>
    (writeFrame_unreset _ n ht).andThen fun _ _ hu => (readFrame_unreset n hu).andThen fun _ _ hv => hv

/-! ## The direct commands (R117, R156) -/

theorem checkOperands_unreset (i : Instr) (h : s.resetIn = none) : (checkOperands i s).Unreset := by
  unfold checkOperands
  split
  · exact h
  · exact nofun

theorem sendCommand_unreset (i : Instr) (h : s.resetIn = none) : (sendCommand i s).Unreset :=
  (checkOperands_unreset i h).andThen fun _ t ht => exchange_unreset (s := dcBegin i t) _ ht

theorem queryCommand_unreset (i : Instr) (h : s.resetIn = none) : (queryCommand i s).Unreset :=
  (checkOperands_unreset i h).andThen fun _ t ht => exchangeRead_unreset (s := dcBegin i t) _ _ ht

theorem readRegister_unreset (addr : Byte) (h : s.resetIn = none) : (readRegister addr s).Unreset :=
  Run.Sat.map (queryCommand_unreset _ h)

/-! ## SetRFOn and SetRFOff (R181, R182), and the status decoder (R190 to R196) -/

theorem pollFlag_unreset (bit n : Nat) : ∀ {s : State}, s.resetIn = none → (pollFlag bit n s).Unreset := by
  induction n with
  | zero => exact fun {s} _ => raiseBusTimeout_unreset .irqPoll s
  | succ n ih =>
    refine fun h => (readRegister_unreset 0x02 h).andThen fun v t ht => ?_
    split
    · exact ht
    · exact ih ht

theorem switchField_unreset (i : Instr) (bit : Nat) (h : s.resetIn = none) : (switchField i bit s).Unreset :=
  (sendCommand_unreset i h).andThen fun _ t ht =>
    (pollFlag_unreset bit _ (s := pollingFrom t) ht).andThen fun _ u hu =>
      Run.Sat.map (sendCommand_unreset (s := dcEnter .clear u) _ hu)

theorem getIrqStatus_unreset (h : s.resetIn = none) : (getIrqStatus s).Unreset :=
  (readRegister_unreset 0x02 h).andThen fun _ _ ht => ht

theorem clearIrqStatus_unreset (mask : Word) (h : s.resetIn = none) : (clearIrqStatus mask s).Unreset := sendCommand_unreset _ h

theorem getTransceiveState_unreset (h : s.resetIn = none) : (getTransceiveState s).Unreset :=
  (readRegister_unreset 0x1D h).andThen fun _ _ ht => ht

/-! ## The protocol engine (R200 to R223) -/

theorem crcControl_unreset (addr : Byte) (c : CrcControl) (h : s.resetIn = none) : (crcControl addr c s).Unreset := by
  cases c with
  | on | off => exact sendCommand_unreset _ h
  | keep => exact h

theorem crcStage_unreset (p : ProtocolRequest) (h : s.resetIn = none) : (crcStage p s).Unreset :=
  (crcControl_unreset 0x19 p.crcTx h).andThen fun _ _ ht => (crcControl_unreset 0x12 p.crcRx ht).andThen fun _ _ hu => hu

theorem readyCheck_unreset (h : s.resetIn = none) : (readyCheck s).Unreset := by
  unfold readyCheck
  split
  · exact Run.Sat.map (getTransceiveState_unreset h)
  · exact h

theorem transceiveStage_unreset (p : ProtocolRequest) (h : s.resetIn = none) : (transceiveStage p s).Unreset := by
  unfold transceiveStage
  split
  · have hstart : (startTransceive s).Unreset := (sendCommand_unreset _ h).andThen fun _ _ ht => sendCommand_unreset _ ht
    exact hstart.andThen fun _ _ hu => readyCheck_unreset hu
  · exact h

theorem awaitStart_unreset (n : Nat) : ∀ {s : State}, s.resetIn = none → (awaitStart n s).Unreset := by
  induction n with
  | zero => exact fun h => h
  | succ n ih =>
    refine fun h => (getIrqStatus_unreset h).andThen fun v t ht => ?_
    split
    · exact ht
    · exact ih ht

theorem readLength_unreset (h : s.resetIn = none) : (readLength s).Unreset :=
  (readRegister_unreset 0x13 h).andThen fun _ _ ht => ht

theorem transmitAndAwait_unreset (p : ProtocolRequest) (h : s.resetIn = none) : (transmitAndAwait p s).Unreset := by
  refine (sendCommand_unreset _ h).andThen fun _ t ht =>
    (awaitStart_unreset _ (s := (t.stage .awaitingResponse).onPe _) ht).andThen fun seen u hu => ?_
  cases seen with
  | true => exact (readLength_unreset hu).andThen fun _ _ hv => hv
  | false => exact hu

theorem engineFront_unreset (p : ProtocolRequest) (h : s.resetIn = none) : (engineFront p s).Unreset := by
  refine (checkOperands_unreset (s := s.onPe _) _ h).andThen fun _ t ht => (crcStage_unreset p ht).andThen fun _ u hu =>
    (transceiveStage_unreset (s := u.stage .transmitting) p hu).andThen fun bad v hv => ?_
  cases bad with
  | some n => exact hv
  | none => exact transmitAndAwait_unreset p hv

theorem finish_unreset (c : Completion) (h : s.resetIn = none) : (finish c s).Unreset :=
  (clearIrqStatus_unreset (s := (s.stage .classified).onPe _) _ h).andThen fun _ _ ht => ht

theorem engineBack_unreset (p : ProtocolRequest) (n : Nat) (h : s.resetIn = none) : (engineBack p n s).Unreset :=
  (queryCommand_unreset _ h).andThen fun _ _ ht => finish_unreset _ ht

theorem engine_unreset (p : ProtocolRequest) (h : s.resetIn = none) : (engine p s).Unreset := by
  refine (engineFront_unreset p h).andThen fun v t ht => ?_
  cases v with
  | inl o => exact finish_unreset _ ht
  | inr n => exact engineBack_unreset p n ht

end

end Sys2Proof.Machine
end

section
/-! SUPPORT. All that the run of an operation record can come to, said once (R260, R263, R279): its ends are a completion record or the
reset event, and a front-end that is not FE_REF refuses none of them (R316). -/

namespace Sys2Proof.Machine

/-! ## The run of a record, and the end of an operation -/

/-- What the run of an operation record from `s` is, unless the record is malformed. -/
inductive Performs (s : State) : Host.Outcome State Fault Refusal → Prop where
  | unsupported : Performs s (.next (endUnsupported s))
  | operation (body : State → Run Completion) (hb : ∀ {u : State}, u.resetIn = none → (body u).Unreset) :
      Performs s (performOperation body s)
  | engine (p : ProtocolRequest) : Performs s (opProtocolTransact p s)

/-- How an operation from `s` ends: with a completion record, or abandoned by a reset event that was on its way. -/
inductive Ends (s : State) : State → Prop where
  | completed (c : Completion) (u : State) : Ends s (u.complete c)
  | abandoned (hr : s.resetIn ≠ none) (u : State) : Ends s u.blockReset

/-- The record is no malformed encoding (log entry 19). -/
def Request.Decodes (r : Request) : Prop :=
  ∀ e, r = .encoded e → (∃ i, decode e = .ok i) ∨ ∃ op, decode e = .error (.unlistedOpcode op)

section

variable {s t : State} {o : Host.Outcome State Fault Refusal}

theorem exec_performs (i : Instr) (s : State) : Performs s (exec i s) := by
  cases i with
  | writeRegister | writeRegisterOrMask | writeRegisterAndMask | writeEEPROM | sendData | loadRFConfig =>
    exact .operation (fun u => (sendCommand _ u).map _) fun h => Run.Sat.map (sendCommand_unreset _ h)
  | readEEPROM | readData =>
    exact .operation (fun u => (queryCommand _ u).map _) fun h => Run.Sat.map (queryCommand_unreset _ h)
  | readRegister addr =>
    exact .operation (fun u => (readRegister addr u).map _) fun h => Run.Sat.map (readRegister_unreset addr h)
  | rfOn | rfOff => exact .operation (switchField _ _) (switchField_unreset _ _)
  | switchMode => exact .unsupported

theorem opIsIrqAsserted_performs (s : State) : Performs s (opIsIrqAsserted s) := by
  unfold opIsIrqAsserted
  split
  · exact .operation sampleIrq fun h => h
  · exact .unsupported

theorem runRequest_unlistedOpcode {e : Encoding} {op : Byte} (h : decode e = .error (.unlistedOpcode op)) (s : State) :
    runRequest (.encoded e) s = .next (endUnsupported s) := by
  simp [runRequest, h]

theorem runRequest_performs {r : Request} (hr : r.Decodes) (s : State) : Performs s (runRequest r s) := by
  cases r with
  | direct i => exact exec_performs i s
  | encoded e =>
    rcases hr e rfl with ⟨i, hd⟩ | ⟨op, hd⟩
    · rw [runRequest_encoded hd]
      exact exec_performs i s
    · rw [runRequest_unlistedOpcode hd]
      exact .unsupported
  | getIrqStatus => exact .operation (fun u => (getIrqStatus u).map _) fun h => Run.Sat.map (getIrqStatus_unreset h)
  | clearIrqStatus mask =>
    exact .operation (fun u => (clearIrqStatus mask u).map _) fun h => Run.Sat.map (clearIrqStatus_unreset mask h)
  | getTransceiveState =>
    exact .operation (fun u => (getTransceiveState u).map _) fun h => Run.Sat.map (getTransceiveState_unreset h)
  | isIrqAsserted => exact opIsIrqAsserted_performs s
  | protocolTransact p => exact .engine p
  | unlisted => exact .unsupported

/-- A malformed record is refused, so that it has no next state (R117). -/
theorem decodes_of_runRequest_next {r : Request} (h : runRequest r s = .next t) : r.Decodes := by
  rintro e rfl
  simp only [runRequest] at h
  split at h
  · next i hd => exact .inl ⟨i, hd⟩
  · next op hd => exact .inr ⟨op, hd⟩
  · cases h

theorem finishRun_ends {m : Run Completion} (h : s.resetIn = none → m.Unreset) : Ends s (finishRun m) := by
  match m, h with
  | .ok c u, _ => exact .completed c u
  | .stop (.outcome o) u, _ => exact .completed ⟨o, .none⟩ u
  | .stop .reset u, h => exact .abandoned (fun hr => h hr rfl) u

theorem finishEngine_ends {m : Run Completion} (h : s.resetIn = none → m.Unreset) : Ends s (finishEngine m) := by
  match m, h with
  | .ok c u, _ => exact .completed c u
  | .stop (.outcome o) u, _ => exact .completed ⟨o, .none⟩ (leaveStage u)
  | .stop .reset u, h => exact .abandoned (fun hr => h hr rfl) u

/-- Only FE_REF stops with a named error (R66). -/
theorem Performs.next (h : Performs s o) (hk : s.fe.kind = .unconstrained) : ∃ t, o = .next t := by
  cases h with
  | unsupported => exact ⟨_, rfl⟩
  | operation body => exact performOperation_next body hk
  | engine p => exact ⟨_, by rw [opProtocolTransact, hk]; rfl⟩

theorem Performs.ends (h : Performs s o) (ho : o = .next t) : Ends s t := by
  cases h with
  | unsupported => exact Host.Outcome.next.inj ho ▸ .completed ⟨.unsupported, .none⟩ s
  | operation body hb => exact eq_of_answer_next ho ▸ finishRun_ends (hb (u := s.accept))
  | engine p => exact eq_of_answer_next ho ▸ finishEngine_ends (engine_unreset p (s := s.accept))

/-! ## The step -/

/-- Only an idle block takes a record and goes on to a next state (log entry 18). -/
theorem idle_of_step_next (h : step s = .next t) : s.xcvr.xcBusy = false := by
  unfold step at h
  split at h
  · cases h
  · next hb => exact Bool.eq_false_iff.2 hb

/-- A step that takes a record ends its operation. -/
theorem step_ends {r : Request} {rest : List Request} (hr : s.requests = r :: rest) (h : step s = .next t) :
    Ends { s with requests := rest } t := by
  rw [step_of_idle (idle_of_step_next h) hr] at h
  exact (runRequest_performs (decodes_of_runRequest_next h) _).ends h

end

/-! ## The statements -/

/-- Settles O10: what the command performs is refused by FE_REF only. -/
theorem unconstrainedNeverRefuses : Obligations.UnconstrainedNeverRefuses := fun s i hk => (exec_performs i s).next hk

/-- Settles O8: both forms of the request run `endUnsupported`, which accepts nothing. -/
theorem unlistedRequestsUnsupported : Obligations.UnlistedRequestsUnsupported := by
  intro s r rest hb hr hunlisted
  have hrun : runRequest r { s with requests := rest } = .next (endUnsupported { s with requests := rest }) := by
    rcases hunlisted with ⟨k, rfl⟩ | ⟨e, op, rfl, hd⟩
    · rfl
    · exact runRequest_unlistedOpcode hd _
  exact ⟨_, (step_of_idle hb hr).trans hrun, endUnsupported_rejected _,
    endUnsupported_xcvr (s := { s with requests := rest })⟩

/-- Settles O9: without a reset event the operation ends with a completion record, and only FE_REF keeps a step from its end. -/
theorem everyOperationCompletes : Obligations.EveryOperationCompletes := by
  refine ⟨fun s t r rest hreset hr hst => ?_, fun s r rest hb hk hr hdec => ?_⟩
  · have hrest : t.requests = rest := by rw [(step_proceeds hst).requests, hr]; rfl
    cases step_ends hr hst with
    | completed c u => exact ⟨rfl, rfl, hrest⟩
    | abandoned hdue => exact absurd hreset hdue
  · rw [step_of_idle hb hr]
    exact (runRequest_performs hdec _).next hk

end Sys2Proof.Machine
end

section
/-! SUPPORT. The reset event (R290): before the first frame of a command it leaves the front-end untouched, and nothing else leaves an
operation without a completion record. -/

namespace Sys2Proof.Machine

variable {s : State} {i : Instr}

/-- Where no frame is in progress the front-end is not touched. -/
theorem State.blockReset_fe_of_noFrame (h : s.xcvr.frameInProgress = false) : s.blockReset.fe = s.fe := by
  rw [State.blockReset_fe, h]
  rfl

/-- A command in step 1 of its first frame, with BUSY not sampled yet (R130). -/
def State.inStepOne (i : Instr) (s : State) : State :=
  ((dcBegin i s).onBus fun r => { r with txf := (encode i).frame, txfLen := (encode i).frame.length }).enter .waitReady

/-- Step 1 sends nothing, so that no frame is in progress. -/
theorem State.inStepOne_noFrame (h : s.xcvr.bus.sel = false) : (s.inStepOne i).xcvr.frameInProgress = false := by
  simp [Xcvr.frameInProgress, State.inStepOne, h]

theorem waitBusy_reset (p : BtPhase) (level : Bool) (cause : BusCause) (h : s.resetIn = some 0) :
    waitBusy p level cause s = .stop .reset (s.enter p) := by
  have hp : pulse (s.enter p) = .stop .reset (s.enter p) := by simp [pulse, h]
  unfold waitBusy
  cases s.params.tBusy <;> simp [waitSamples, sampleBusy, hp]

theorem startExchange_reset (h : s.resetIn = some 0) :
    startExchange (encode i).frame (dcBegin i s) = .stop .reset (s.inStepOne i) := waitBusy_reset _ _ _ h

theorem sendCommand_reset (h : s.resetIn = some 0) (hp : paramError s.params i = none) :
    sendCommand i s = .stop .reset (s.inStepOne i) := by
  simp only [sendCommand, checkOperands_of_accepted hp, Run.ok_andThen, exchange, startExchange_reset h, Run.stop_andThen]

theorem queryCommand_reset (h : s.resetIn = some 0) (hp : paramError s.params i = none) :
    queryCommand i s = .stop .reset (s.inStepOne i) := by
  simp only [queryCommand, checkOperands_of_accepted hp, Run.ok_andThen, exchangeRead, startExchange_reset h,
    Run.stop_andThen]

theorem performOperation_reset {body : State → Run Completion}
    (h : body s.accept = .stop .reset (s.accept.inStepOne i)) :
    performOperation body s = .next (s.accept.inStepOne i).blockReset := by
  rw [performOperation, h]
  exact answer_next rfl

/-- The reset event lands before the first frame of a command. -/
theorem exec_reset (h : s.resetIn = some 0) (hp : paramError s.params i = none) (hi : i ≠ .switchMode) :
    exec i s = .next (s.accept.inStepOne i).blockReset := by
  have hsend : sendCommand i s.accept = .stop .reset (s.accept.inStepOne i) := sendCommand_reset h hp
  have hquery : queryCommand i s.accept = .stop .reset (s.accept.inStepOne i) := queryCommand_reset h hp
  cases i with
  | switchMode => exact absurd rfl hi
  | writeRegister | writeRegisterOrMask | writeRegisterAndMask | writeEEPROM | sendData | loadRFConfig =>
    exact performOperation_reset (body := fun u => (sendCommand _ u).map _) (by rw [hsend, Run.map_stop])
  | readEEPROM | readData =>
    exact performOperation_reset (body := fun u => (queryCommand _ u).map _) (by rw [hquery, Run.map_stop])
  | readRegister addr =>
    refine (execReadRegister_eq addr s).trans (performOperation_reset ?_)
    rw [hquery, Run.map_stop]
  | rfOn | rfOff =>
    exact performOperation_reset (body := switchField _ _) (by rw [switchField, hsend, Run.stop_andThen])

theorem step_reset (h : s.resetIn = some 0) (hb : s.xcvr.xcBusy = false) (hr : s.requests = []) :
    step s = .next s.blockReset := by
  simp [step, hb, hr, State.idleStep, h]

/-- Settles O52: the event lands in step 1, or with no operation, where no frame is in progress; and an operation with no completion
record was abandoned by it. -/
theorem resetEventAbandons : Obligations.ResetEventAbandons := by
  refine ⟨fun s i h hsel hp hi => ?_, fun s h hsel hb hr => ?_, fun s t r rest hr hst hnone => ?_⟩
  · exact ⟨_, exec_reset h hp hi, rfl, rfl, State.blockReset_fe_of_noFrame (State.inStepOne_noFrame hsel), rfl⟩
  · have hframe : s.xcvr.frameInProgress = false := by simp [Xcvr.frameInProgress, hsel, hb]
    exact ⟨_, step_reset h hb hr, rfl, State.blockReset_fe_of_noFrame hframe, rfl⟩
  · cases step_ends hr hst with
    | completed c u => cases hnone
    | abandoned => exact ⟨rfl, rfl⟩

end Sys2Proof.Machine
end

section
/-! SUPPORT. The writes no rule gives a meaning (U5, log entry 14): with a front-end that answers and is not FE_REF each is one frame,
after which the register touched holds a free value. -/

namespace Sys2Proof.Machine

variable {s t : State} {addr : Byte} {i : Instr}

/-! ## The register touched -/

/-- The register a write with no meaning touches: a masked write at IRQ_CLEAR touches IRQ_STATUS (log entry 14). -/
def touchedReg (addr : Byte) : Byte := if addr = 0x03 then 0x02 else addr

theorem touchedReg_toNat (addr : Byte) : (touchedReg addr).toNat = if addr.toNat = 0x03 then 0x02 else addr.toNat := by
  revert addr
  decide

section

variable (f : FeStore)

/-- All that a free value can move: the status registers. -/
theorem FeStore.scrambleReg_eq (addr : Byte) : ∃ irqStatus rxStatus ts rfStatusRest draws, f.scrambleReg addr =
    { f with irqStatus := irqStatus, rxStatus := rxStatus, ts := ts, rfStatusRest := rfStatusRest, draws := draws } := by
  unfold FeStore.scrambleReg
  split <;> exact ⟨_, _, _, _, _, rfl⟩

/-- The transceive state moves only with RF_STATUS. -/
theorem FeStore.scrambleReg_ts (h : touchedReg addr ≠ 0x1D) : (f.scrambleReg addr).ts = f.ts := by
  have hn : addr.toNat ≠ 0x1D := fun e => by
    obtain rfl : addr = 0x1D := BitVec.eq_of_toNat_eq e
    exact h rfl
  unfold FeStore.scrambleReg
  split <;> simp_all

/-- Every register but the one touched is read as before. -/
theorem FeStore.regRead_scrambleReg_other (p : Params) (kind : FeKind) {a : Byte} (h : a ≠ touchedReg addr) :
    (f.scrambleReg addr).regRead p kind a = f.regRead p kind a := by
  have hn : a.toNat ≠ if addr.toNat = 0x03 then 0x02 else addr.toNat :=
    fun e => h (BitVec.eq_of_toNat_eq (e.trans (touchedReg_toNat addr).symm))
  unfold FeStore.scrambleReg
  split
  case h_5 => rfl
  all_goals
    unfold FeStore.regRead
    split <;> simp_all [FeStore.rfStatus]

end

/-- What is claimed of such a write, from the store it leaves. -/
theorem BlockAround.kept_of_scrambleReg (h : BlockAround s t) (hs : t.fe.store = s.fe.store.scrambleReg addr) :
    RegistersKeptBut [touchedReg addr, 0x03] s t ∧ StoreKept s t := by
  refine ⟨⟨fun a ha => ?_, fun hts => ?_⟩, ?_⟩
  · obtain ⟨hne, -⟩ : a ≠ touchedReg addr ∧ a ≠ 0x03 := by simpa using ha
    rw [h.reg_eq hs]
    exact FeStore.regRead_scrambleReg_other _ _ _ hne
  · obtain ⟨hne, -⟩ : (0x1D : Byte) ≠ touchedReg addr ∧ (0x1D : Byte) ≠ 0x03 := by simpa using hts
    rw [hs]
    exact FeStore.scrambleReg_ts _ hne.symm
  · obtain ⟨irqStatus, rxStatus, ts, rfStatusRest, draws, he⟩ := s.fe.store.scrambleReg_eq addr
    rw [he] at hs
    exact
      { buffers := by constructor <;> rw [hs]
        radio := by constructor <;> rw [hs]
        eeprom := fun a => by rw [State.eepromAt, hs]; rfl }

/-! ## The writes -/

/-- A register write that no rule gives a meaning: a write to a status register, and a masked write to one or to IRQ_CLEAR (U5). -/
inductive Meaningless (addr : Byte) : Instr → Prop where
  | value (v : Word) (h : isStatusReg addr = true) : Meaningless addr (.writeRegister addr v)
  | orMask (m : Word) (h : isPlainReg addr = false) : Meaningless addr (.writeRegisterOrMask addr m)
  | andMask (m : Word) (h : isPlainReg addr = false) : Meaningless addr (.writeRegisterAndMask addr m)

theorem Meaningless.react (hi : Meaningless addr i) (p : Params) (kind : FeKind) (f : FeStore) :
    f.react p kind i = f.scrambleReg addr := by
  cases hi with
  | value v h =>
    have h3 : addr ≠ 0x03 := by rintro rfl; cases h
    exact (if_neg h3).trans (if_pos h)
  | orMask m h | andMask m h => exact if_neg (Bool.eq_false_iff.1 h)

theorem Meaningless.exec_eq (hi : Meaningless addr i) (s : State) :
    exec i s = performOperation (fun u => (sendCommand i u).map fun _ => Completion.done) s := by
  cases hi with
  | value | orMask | andMask => rfl

theorem Meaningless.paramError_eq (hi : Meaningless addr i) (p : Params) : paramError p i = registerError p addr := by
  cases hi with
  | value | orMask | andMask => rfl

theorem Meaningless.encodes (hi : Meaningless addr i) : decode (encode i) = .ok i ∧ (encode i).readLen = 0 := by
  cases hi with
  | value | orMask | andMask => exact ⟨decode_encode rfl, rfl⟩

/-- Settles O17: the reaction to the frame is to scramble the register touched. -/
theorem statusWritesComplete : Obligations.StatusWritesComplete := by
  intro s i addr x hq hk hd h
  have hi : Meaningless addr i := by
    rcases h with ⟨rfl, hs⟩ | ⟨rfl | rfl, hp⟩
    · exact .value x hs
    · exact .orMask x hp
    · exact .andMask x hp
  obtain ⟨hdec, hlen⟩ := hi.encodes
  obtain ⟨t, ht, hdone, hfe⟩ := performOperation_send (i := i) hq
    (by rw [hi.paramError_eq]; exact (registerError_none _ _).2 hd) (fun href => by rw [hk] at href; cases href) hdec hlen
  have hs : t.fe.store = s.fe.store.scrambleReg addr := by
    rw [hfe, ← hi.react s.params s.fe.kind]
    rfl
  exact ⟨t, (hi.exec_eq s).trans ht, hdone, hdone.around.kept_of_scrambleReg hs⟩

end Sys2Proof.Machine
end
